-- ==== Sys2Proof/Word.lean ====
section
/-!
DEFINITION. The word types of the block: 32-bit words (XLEN and ILEN of Table R5), bytes, and the
5-bit register indices the codec produces (R120).
-/
namespace Sys2Proof

/-- A 32-bit word: an instruction word, a register value, a bus address, the pc. -/
abbrev Word := BitVec 32

/-- One byte of a memory or of the bus. -/
abbrev Byte := BitVec 8

/-- A general-register index, every value legal (R122). -/
abbrev RegIdx := BitVec 5

end Sys2Proof
end

