-- ==== Sys2Proof/Config.lean ====
section
/-!
DEFINITION. The parameters of Table R5: the numbers the spec fixes are constants; the OPEN ones are the fields of
`Platform`, carried by the state as an argument of the model (R5, R41; log 1). The free values of the
model, opaque constants nothing can evaluate, stand at the end.
-/
namespace Sys2Proof.Config

/-- CUSTOM_OPCODE of Table R5: the low seven bits of every word of the block (R91). -/
def customOpcode : BitVec 7 := 0b1111011#7

/-- IMEM_PAGE of Table R5 (R185). -/
def imemPage : Nat := 4

/-- DMEM_PAGE of Table R5 (R185). -/
def dmemPage : Nat := 64

/-- SIMPRINT_MAX of Table R5: the most bytes one `simprint` reads (R131). -/
def simprintMax : Nat := 255

/-- REGFILE_SPAN of Table R5: bytes of bus address space the register file occupies. -/
def regfileSpan : Nat := 0x400

/-- CONTROL_BLOCK_ATTACHED of Table R5, true for this hardware (D23; log 25). -/
def controlBlockAttached : Bool := true

/-- X0_HARDWIRED of Table R5, true (D20; log 11). -/
def x0Hardwired : Bool := true

/-- PC_START_SHIFT of Table R5 has two possible values, 0 and 2 (D3). -/
inductive PcStartShift where
  | zero
  | two
deriving DecidableEq, Repr

/-- The number of places the Control payload is shifted left (R162). -/
def PcStartShift.amount : PcStartShift → Nat
  | .zero => 0
  | .two => 2

/-- A window of the bus that the platform maps to something other than `imem`, `dmem` and the register
file; its answers come from outside the block (R41, D32). -/
structure BusWindow where
  base : Word
  size : Nat
deriving DecidableEq, Repr

/-- The OPEN parameters of Table R5. No action of the model writes them. -/
structure Platform where
  /-- IMEM_BASE: bus address at which instruction memory is mapped. -/
  imemBase : Word
  /-- IMEM_SIZE in bytes. -/
  imemSize : Nat
  /-- DMEM_BASE: bus address at which data memory is mapped. -/
  dmemBase : Word
  /-- DMEM_SIZE in bytes. -/
  dmemSize : Nat
  /-- CTRL_BASE: bus address of register-file offset 0. -/
  ctrlBase : Word
  /-- What else the bus maps (R41; log 10). -/
  otherWindows : List BusWindow
  /-- ERASE_BYTE, the same for both memories (R185). -/
  eraseByte : Byte
  /-- CSR_COUNT_A (R240). -/
  csrCountA : BitVec 12
  /-- CSR_COUNT_B (R240). -/
  csrCountB : BitVec 12
  /-- COUNTER_WIDTH, at least 32 (R35). -/
  counterWidth : Nat
  /-- PC_START_SHIFT (R162). -/
  pcStartShift : PcStartShift
  /-- FAULT_INPUT_WIRED: whether the platform ever drives the fault input (R165). -/
  faultInputWired : Bool
deriving DecidableEq, Repr

/-- What Table R5 says of the OPEN parameters beyond their types: COUNTER_WIDTH is at least 32, the two
counter CSR numbers differ, CTRL_BASE is word aligned. -/
def Platform.wellFormed (p : Platform) : Bool :=
  decide (32 ≤ p.counterWidth) && p.csrCountA != p.csrCountB && p.ctrlBase.extractLsb' 0 2 == 0#2

/-- The erase byte of the reset platform: a free value (D7; log 1). -/
opaque eraseByte : Byte

/-- The parameters at `State.reset`: DESIGN CHOICE (log 1) but for `pcStartShift` and `faultInputWired`, which are
the defaults of Table R5. Both memories have the extent of the 22-bit scrub offset space. -/
def resetPlatform : Platform where
  imemBase := 0x00000000#32
  imemSize := 0x400000
  dmemBase := 0x00400000#32
  dmemSize := 0x400000
  ctrlBase := 0x80000000#32
  otherWindows := []
  eraseByte := eraseByte
  csrCountA := 0xFC0#12
  csrCountB := 0xFC1#12
  counterWidth := 64
  pcStartShift := .zero
  faultInputWired := false

/-- By how much the retired-instruction counter moves at a retirement: any natural number (R35, U11; log 6). -/
opaque retireAdvance : Nat → Nat

/-- What the general registers hold after a reset of the core or of the block (R32, D21, U10; log 4). -/
opaque resetRegisters : Nat → Vector Word 32

/-- What the retired-instruction counter is after a reset of the core or of the block (R35, D21, U11; log 4). -/
opaque resetCounter : Nat → Nat

/-- What the pc is after a reset of the block (R39, U12; log 5). -/
opaque resetPc : Nat → Word

/-- What instruction memory holds after a reset of the block, as (offset, byte) pairs (R37, U13; log 5). -/
opaque resetImem : Nat → List Host.Cell

/-- What data memory holds after a reset of the block, as (offset, byte) pairs (R37, U13; log 5). -/
opaque resetDmem : Nat → List Host.Cell

/-- What the bus answers to a byte read in one of the platform's other windows (R41, D32; log 10). -/
opaque busByte : Nat → Word → Byte

end Sys2Proof.Config
end

