-- ==== Sys2Proof/Syntax.lean ====
section
/-!
DEFINITION. The instructions of the block: one constructor per row of spec/opcode_table.json (R94). A constructor carries the
fields its row names; the bits a row ignores (R96) are not part of the instruction.
-/
namespace Sys2Proof

/-- The six rows of the opcode table, in first-match order. -/
inductive Instr where
  /-- `simprint rd, rs1, rs2` (R131): all three fields name source registers. -/
  | simprint (rd rs1 rs2 : RegIdx)
  /-- `xcount rd, sel` (R132), `sel` the value of the rs1 field, 0 or 1 (R95). -/
  | xcount (rd sel : RegIdx)
  /-- funct3 = 1 with an rs1 field from 2 to 31 (R132, R97): malformed, rd not written. -/
  | xcountBadsel (rd sel : RegIdx)
  /-- `hostreq` (R133). -/
  | hostreq
  /-- `finish` (R134). -/
  | finish
  /-- funct3 from 4 to 7 (R135): unrecognised. -/
  | unrecognised (funct3 : BitVec 3)
deriving DecidableEq, Repr

end Sys2Proof
end

