-- ==== Sys2Proof/WellFormed.lean ====
section
/-!
DEFINITION. Which terms of `Instr` stand for an encoding: the ranges of the fields that the opcode table's rows give.
-/
namespace Sys2Proof

/-- The rs1 field is one of the two valid selectors of `xcount` (R95). -/
def validSelector (sel : RegIdx) : Bool := sel == 0#5 || sel == 1#5

/-- The field ranges of the opcode table: selectors 0 and 1 for `xcount`, 2 to 31 for its malformed form, funct3 4 to 7
for the unrecognised form (R95, R97). -/
def Instr.wellFormed : Instr → Bool
  | .simprint _ _ _ => true
  | .xcount _ sel => validSelector sel
  | .xcountBadsel _ sel => !validSelector sel
  | .hostreq => true
  | .finish => true
  | .unrecognised funct3 => decide (4 ≤ funct3.toNat)

end Sys2Proof
end

