-- ==== Sys2Proof/Decode.lean ====
section
/-!
DEFINITION. The BitFieldCodec (40_bitfield_codec.md), the decoder built on it (30_encoding.md), and after them the encoder
(R100) and the assembler spelling (R99). An instruction word lies in memory with its bits [7:0] at the lowest address
(R61, D25; log 9).
-/
namespace Sys2Proof

/-- The four outputs of the codec (R120). -/
structure Fields where
  rd : RegIdx
  funct3 : BitVec 3
  rs1 : RegIdx
  rs2 : RegIdx
deriving DecidableEq, Repr

/-- R120, total on every word (R121), rejecting none (R122). -/
def extract (w : Word) : Fields where
  rd := w.extractLsb' 7 5
  funct3 := w.extractLsb' 12 3
  rs1 := w.extractLsb' 15 5
  rs2 := w.extractLsb' 20 5

/-- R91: the word belongs to the block. -/
def matchesPattern (w : Word) : Bool := w.extractLsb' 0 7 == Config.customOpcode

/-- Why bytes are not an instruction of the block. -/
inductive DecodeError where
  /-- Fewer than four bytes were given (R90: every instruction is one 32-bit word). -/
  | tooShort
  /-- The low seven bits are not the block's opcode: the word is the core's own (R91). -/
  | notCustomOpcode (w : Word)
deriving DecidableEq, Repr

/-- The opcode map, Table R94, with the selector forms of R95. -/
def instrOfFields (f : Fields) : Instr :=
  if f.funct3 = 0#3 then .simprint f.rd f.rs1 f.rs2
  else if f.funct3 = 1#3 then
    if validSelector f.rs1 then .xcount f.rd f.rs1 else .xcountBadsel f.rd f.rs1
  else if f.funct3 = 2#3 then .hostreq
  else if f.funct3 = 3#3 then .finish
  else .unrecognised f.funct3

/-- The instruction a 32-bit word stands for: every word under the pattern is one (R97). -/
def decodeWord (w : Word) : Except DecodeError Instr :=
  if matchesPattern w then .ok (instrOfFields (extract w)) else .error (.notCustomOpcode w)

/-- The word whose bytes are given, lowest address first (D25; log 9). -/
def wordOfBytes (b0 b1 b2 b3 : Byte) : Word := b3 ++ b2 ++ b1 ++ b0

/-- Reads one instruction from the front of a list of bytes and answers it with the rest. -/
def decode : List Byte → Except DecodeError (Instr × List Byte)
  | b0 :: b1 :: b2 :: b3 :: rest =>
    match decodeWord (wordOfBytes b0 b1 b2 b3) with
    | .ok i => .ok (i, rest)
    | .error e => .error e
  | _ => .error .tooShort

/-- The four bytes of a word in memory order, lowest address first. -/
def bytesOfWord (w : Word) : List Byte :=
  [w.extractLsb' 0 8, w.extractLsb' 8 8, w.extractLsb' 16 8, w.extractLsb' 24 8]

/-- The 32-bit word of an opcode-table row whose bits are `w`; bits above `nbits` are zero. -/
def tableWord (nbits w : Nat) : Word := BitVec.ofNat 32 (w % 2 ^ nbits)

/-- The instruction the decoder reads from a row's bits, laid out in memory order. -/
def decodeTableWord (nbits w : Nat) : Option Instr :=
  match decode (bytesOfWord (tableWord nbits w)) with
  | .ok (i, _) => some i
  | .error _ => none

/-- R100: a word from its fields. -/
def encodeFields (funct7 : BitVec 7) (rs2 rs1 : RegIdx) (funct3 : BitVec 3) (rd : RegIdx) : Word :=
  funct7 ++ rs2 ++ rs1 ++ funct3 ++ rd ++ Config.customOpcode

/-- The canonical word of an instruction: unused fields are zero (R99, R100). -/
def encode : Instr → Word
  | .simprint rd rs1 rs2 => encodeFields 0#7 rs2 rs1 0#3 rd
  | .xcount rd sel => encodeFields 0#7 0#5 sel 1#3 rd
  | .xcountBadsel rd sel => encodeFields 0#7 0#5 sel 1#3 rd
  | .hostreq => encodeFields 0#7 0#5 0#5 2#3 0#5
  | .finish => encodeFields 0#7 0#5 0#5 3#3 0#5
  | .unrecognised funct3 => encodeFields 0#7 0#5 0#5 funct3 0#5

/-- The canonical instruction as it lies in memory. -/
def encodeBytes (i : Instr) : List Byte := bytesOfWord (encode i)

/-- The assembler spelling of R99; a word with no mnemonic of its own is written `.word`, here with its decimal value. -/
def assembly : Instr → String
  | .simprint rd rs1 rs2 =>
    "simprint x" ++ toString rd.toNat ++ ", x" ++ toString rs1.toNat ++ ", x" ++ toString rs2.toNat
  | .xcount rd sel => "xcount x" ++ toString rd.toNat ++ ", " ++ toString sel.toNat
  | .xcountBadsel rd sel => ".word " ++ toString (encode (.xcountBadsel rd sel)).toNat
  | .hostreq => "hostreq"
  | .finish => "finish"
  | .unrecognised funct3 => ".word " ++ toString (encode (.unrecognised funct3)).toNat

end Sys2Proof
end

