-- ==== Sys2Proof/Machine/State.lean ====
section
/-!
DEFINITION. The state of the machine: every piece of block-owned state (R21 to R31), the core-owned state the block reaches
(R32 to R35, R37), the output ports (R9, R155), the parameters (R5) and the schedule (R4, R41). Plain data throughout.
-/
namespace Sys2Proof.Machine

/-- The four interrupt sources (R150). -/
inductive Source where
  | hostReq
  | finish
  | instructionFault
  | dataFault
deriving DecidableEq, Repr

/-- What a reported fault was doing (R165). -/
inductive FaultKind where
  | instructionFetch
  | dataAccess
deriving DecidableEq, Repr

/-- The five severities of `simprint`, in the order of their numbers 0 to 4 (R131). -/
inductive Severity where
  | error
  | warning
  | info
  | debug
  | noisy
deriving DecidableEq, Repr

/-- What an error record reports (R9, Table R232). -/
inductive ErrEvent where
  | unknownFunct3 (funct3 : BitVec 3)
  | badLogLevel (level : Word)
  | badCountSelector (sel : RegIdx)
  | handshakeNotInRun (source : Source)
deriving DecidableEq, Repr

/-- The log alphabet of R9. -/
inductive LogEvent where
  /-- A `simprint` record: severity, seven-bit characters, number. -/
  | print (severity : Severity) (text : List (BitVec 7)) (num : Word)
  /-- A record at severity Error. -/
  | err (e : ErrEvent)
  /-- `Info(Handshake(k))`: a handshake that ran while the mode was Run. -/
  | handshake (source : Source)
deriving DecidableEq, Repr

/-- The two memories of the platform (R37). -/
inductive MemTarget where
  | imem
  | dmem
deriving DecidableEq, Repr

/-- A byte memory: (offset, byte) pairs in the canonical form of `Memory.wf`. -/
abbrev Memory := List Host.Cell

/-- An accepted scrub request (R31, R180); addresses are byte offsets into the target (D6; log 15). -/
structure ScrubRequest where
  target : MemTarget
  startAddress : BitVec 22
  endAddress : BitVec 22
deriving DecidableEq, Repr

/-- The two flags of InitStatus (R30). -/
structure InitStatus where
  pending : Bool
  done : Bool
deriving DecidableEq, Repr

/-- The nine registers of Table R38. -/
inductive CtrlReg where
  | intrState
  | intrEnable
  | intrTest
  | control
  | memoryBankControl
  | errorStatus
  | initStart
  | initEnd
  | initStatus
deriving DecidableEq, Repr

/-- The width of a bus access to the register file (R62). -/
inductive AccessWidth where
  | byte
  | halfword
  | word
deriving DecidableEq, Repr

/-- The actions of R4 other than the core's dispatch, and the loading of memory by the platform (R262; log 33). -/
inductive EnvAction where
  /-- R4(b): the bus reads the register file at an offset relative to CTRL_BASE (R200). -/
  | regRead (offset : BitVec 10) (width : AccessWidth)
  /-- R4(b): the bus writes the register file (R200). -/
  | regWrite (offset : BitVec 10) (width : AccessWidth) (value : Word)
  /-- R4(c): the platform reports a fault (R165). -/
  | faultReport (kind : FaultKind)
  /-- R4(d): a synchronisation point, at which the scrub engine completes its oldest request (R182). -/
  | syncPoint
  /-- R4(e): the core reads a counter CSR (R240). -/
  | csrRead (csr : BitVec 12)
  /-- R4(e): the core writes a counter CSR (R240). -/
  | csrWrite (csr : BitVec 12) (value : Word)
  /-- R4(f): the platform resets the block (R260). -/
  | blockReset
  /-- The platform puts bytes into a memory, by means outside the block (R262 step 1; log 33). -/
  | load (target : MemTarget) (offset : Nat) (bytes : List Byte)
deriving DecidableEq, Repr

/-- Who moves next: the core executes the instruction at its pc (R4(a)), or another agent acts. -/
inductive Turn where
  | core
  | env (action : EnvAction)
deriving DecidableEq, Repr

/-- What the block answers to a read (R200, R240). -/
inductive Reply where
  | register (offset : BitVec 10) (value : Word)
  | counter (csr : BitVec 12) (value : Word)
deriving DecidableEq, Repr

/-- The signals of Table R8 toward the core that leave no other trace. -/
inductive CoreSignal where
  /-- `CoreReset()`. -/
  | reset
  /-- `CoreResume()`. -/
  | resume
deriving DecidableEq, Repr

/-- What the block has put out, oldest first; no rule reads it (R9; log 22). -/
structure Outputs where
  /-- The log output (R9). -/
  log : List LogEvent
  /-- The addresses of the byte reads made on the bus (R63). -/
  busReads : List Word
  /-- The answers to register and counter reads. -/
  replies : List Reply
  /-- The signals sent to the core. -/
  coreSignals : List CoreSignal
deriving DecidableEq, Repr

/-- Nothing put out yet (Table R39, "log output: empty"). -/
def Outputs.empty : Outputs := { log := [], busReads := [], replies := [], coreSignals := [] }

/-- The machine's state. -/
structure State where
  /-- The parameters of Table R5, never written (R41; log 1). -/
  plat : Config.Platform
  /-- R21: bit 0 Freeze, bit 1 SoftwareReset. -/
  mode : BitVec 2
  /-- R22: the payload of the last Control write. -/
  pcStart : BitVec 17
  /-- R23: one enable bit per source. -/
  enabled : BitVec 4
  /-- R24: one pending bit per source. -/
  pending : BitVec 4
  /-- R26: stored, unused. -/
  memBankCtrl : BitVec 12
  /-- R27: stored, unused. -/
  errorStatus : BitVec 14
  /-- R28: the address of the last InitStart write. -/
  initStart : BitVec 22
  /-- R28: the target selector of the last InitStart write, 0 instruction memory (D5; log 15). -/
  initSel : BitVec 1
  /-- R29: the address of the last InitEnd write. -/
  initEnd : BitVec 22
  /-- R30. -/
  initStatus : InitStatus
  /-- R31: accepted requests not yet performed, oldest first. -/
  scrubQueue : List ScrubRequest
  /-- R32: the general registers. -/
  x : Vector Word 32
  /-- R33. -/
  pc : Word
  /-- R34. -/
  halted : Bool
  /-- R35: the retired-instruction counter, before it is cut to COUNTER_WIDTH (log 6). -/
  instret : Nat
  /-- R37: instruction memory, by byte offset. -/
  imem : Memory
  /-- R37: data memory, by byte offset. -/
  dmem : Memory
  /-- The output ports. -/
  out : Outputs
  /-- The turns still to come, the next first (R4, R41, D31; log 7). The model's own field. -/
  schedule : List Turn
  /-- How many free values have been drawn (log 38). The model's own field. -/
  tick : Nat
deriving DecidableEq, Repr

/-- The ways the machine can stop with a fault: none. "No error is ever fatal" (R10), no instruction traps (R230), and
a machine of this spec that meets a case without a meaning refuses (R10), so nothing raises a fault. -/
inductive Fault
deriving DecidableEq, Repr

/-- The cases to which the spec gives no meaning (R10). Each is safe: the run stops where hardware would do something
the spec does not say. -/
inductive Refusal where
  /-- An instruction without a meaning yet, raised by an arm of `exec` only. Safe. -/
  | notModelled (mnemonic : String)
  /-- Raised by a byte read of `simprint` at an address the bus maps to nothing (R63, D32, U7). Safe. -/
  | busUnanswered (address : Word)
  /-- Raised by a byte read of `simprint` that lands in the block's own register file (R212, U7). Safe. -/
  | busReadOfRegisterFile (address : Word)
  /-- Raised by a bus access to the register file that is not an aligned 32-bit word (R62, R212, D13). Safe. -/
  | accessNotWord (offset : BitVec 10)
  /-- Raised by the completion of a scrub with a page beyond its memory's extent (R68, R187, D10). Safe. -/
  | scrubBeyondExtent (request : ScrubRequest)
  /-- Raised by the core's fetch at a pc that is not a multiple of 4 (R33, U15; log 9). Safe. -/
  | fetchMisaligned (pc : Word)
  /-- Raised by the core's fetch at a pc outside instruction memory (U15; log 9). Safe. -/
  | fetchOutsideImem (pc : Word)
  /-- Raised when the fetched word is one of the core's own instructions, to which this spec gives no rule (R3, R91). Safe. -/
  | coreOwnInstruction (word : Word)
  /-- Raised by a CSR access at an address that is not one of the block's two (R3, R240). Safe. -/
  | csrNotOfBlock (csr : BitVec 12)
  /-- Raised by the platform's loading of bytes beyond a memory's extent (R66; log 33). Safe. -/
  | loadBeyondExtent (target : MemTarget) (offset : Nat)
deriving DecidableEq, Repr

/-- The state after the block's reset (Table R39). The values the spec does not state: log 1, log 2, log 3, log 7, log 18. -/
def State.reset : State where
  plat := Config.resetPlatform
  mode := 3#2
  pcStart := 0#17
  enabled := 0#4
  pending := 0#4
  memBankCtrl := 0#12
  errorStatus := 0#14
  initStart := 0#22
  initSel := 0#1
  initEnd := 0#22
  initStatus := { pending := false, done := false }
  scrubQueue := []
  x := Vector.replicate 32 0#32
  pc := 0#32
  halted := true
  instret := 0
  imem := []
  dmem := []
  out := Outputs.empty
  schedule := []
  tick := 0

end Sys2Proof.Machine
end

