-- ==== Sys2Proof/Machine/Flags.lean ====
section
/-!
DEFINITION. The flag computations. The block has no condition codes (R36); its flags are the `pending` and `enabled` sets
of the InterruptAggregator (42_interrupt_aggregator.md) and the two flags of the mode (R160).
-/
namespace Sys2Proof.Machine

/-- The bit of a source in both sets and the line index (Table R150, D1; log 12). -/
def sourceBit : Source → Nat
  | .hostReq => 0
  | .finish => 1
  | .instructionFault => 2
  | .dataFault => 3

/-- The mask of a source (Table R150). -/
def sourceMask (k : Source) : BitVec 4 := 1#4 <<< sourceBit k

/-- Write-1-to-clear (R151). -/
def clearBits (set mask : BitVec 4) : BitVec 4 := set &&& ~~~mask

/-- Write-1-to-set (R153, R154). -/
def setBits (set mask : BitVec 4) : BitVec 4 := set ||| mask

/-- The four output lines as one set (R155). -/
def lines (s : State) : BitVec 4 := s.enabled &&& s.pending

/-- `line[b]` (R25): the level of one source's line. -/
def line (k : Source) (s : State) : Bool := (lines s).getLsbD (sourceBit k)

/-- `mode` = 0 (R160). -/
def modeRun : BitVec 2 := 0#2

/-- `mode` = 1 (R160). -/
def modeFreeze : BitVec 2 := 1#2

/-- `mode` = 3 (R160). -/
def modeFreezeReset : BitVec 2 := 3#2

/-- The Freeze flag of a mode (R21). -/
def freezeFlag (mode : BitVec 2) : Bool := mode.getLsbD 0

/-- The SoftwareReset flag of a mode (R21). -/
def softwareResetFlag (mode : BitVec 2) : Bool := mode.getLsbD 1

/-- The source a fault report raises (R165). -/
def faultSource : FaultKind → Source
  | .instructionFetch => .instructionFault
  | .dataAccess => .dataFault

end Sys2Proof.Machine
end

