-- ==== Sys2Proof/Machine/Memory.lean ====
section
/-!
DEFINITION. The operations on a byte memory (R37): reading and writing one byte, filling a range (`MemFill` of Table R8),
storing a list of bytes, and the canonical form they keep.
-/
namespace Sys2Proof.Machine

/-- What an offset that nothing has written reads as: DESIGN CHOICE (log 3). -/
def Memory.blank : Byte := 0#8

/-- The byte at an offset. -/
def Memory.read : Memory → Nat → Byte
  | [], _ => Memory.blank
  | (k, v) :: m, a => if a = k then v else Memory.read m a

/-- A cell in front of a memory, left out when it holds the blank byte. -/
def Memory.consCell (a : Nat) (b : Byte) (m : Memory) : Memory :=
  if b = Memory.blank then m else (a, b) :: m

/-- Stores one byte, keeping the cells in rising order and no blank cell listed. -/
def Memory.write : Memory → Nat → Byte → Memory
  | [], a, b => Memory.consCell a b []
  | (k, v) :: m, a, b =>
    if a < k then Memory.consCell a b ((k, v) :: m)
    else if a = k then Memory.consCell a b m
    else (k, v) :: Memory.write m a b

/-- `MemFill` of Table R8: the byte `b` at the `n` offsets from `off`. -/
def Memory.fill (m : Memory) (off : Nat) : Nat → Byte → Memory
  | 0, _ => m
  | n + 1, b => Memory.fill (m.write off b) (off + 1) n b

/-- Stores a list of bytes at consecutive offsets. -/
def Memory.store (m : Memory) (off : Nat) : List Byte → Memory
  | [] => m
  | b :: bs => Memory.store (m.write off b) (off + 1) bs

/-- The memory of `size` bytes whose contents are a list of cells in any order, later cells winning, cells beyond
the extent left out. -/
def Memory.ofCells (size : Nat) : List Host.Cell → Memory
  | [] => []
  | (k, v) :: cs => if k < size then (Memory.ofCells size cs).write k v else Memory.ofCells size cs

/-- The canonical form: offsets strictly rising, no blank byte listed. -/
abbrev Memory.wf (m : Memory) : Prop :=
  m.Pairwise (fun c d => c.1 < d.1) ∧ ∀ c ∈ m, c.2 ≠ Memory.blank

/-- Every listed cell lies inside an extent of `size` bytes (R37). -/
abbrev Memory.within (m : Memory) (size : Nat) : Prop := ∀ c ∈ m, c.1 < size

end Sys2Proof.Machine
end

