-- ==== Sys2Proof/Machine/Ops.lean ====
section
/-!
DEFINITION. The named operations over the state: registers, memories, the bus byte read, outputs, the counter, the aggregator's
writes, and what stands in the place of exception entry and return (R236, R237): the handshake and the Control write.
-/
namespace Sys2Proof.Machine

/-! ### General registers (R32) -/

/-- `x[i]` of Table R8; index 0 reads 0 on the RV32 core (D20; log 11). -/
def readReg (i : RegIdx) (s : State) : Word :=
  if Config.x0Hardwired && i == 0#5 then 0#32 else s.x[i.toNat]'i.isLt

/-- `x[i] <- v` of Table R8; a write to index 0 is discarded (D20; log 11). -/
def writeReg (i : RegIdx) (v : Word) (s : State) : State :=
  if Config.x0Hardwired && i == 0#5 then s else { s with x := s.x.set i.toNat v i.isLt }

/-! ### Output ports (R9, R63) -/

/-- `Log(ev)` of Table R8. -/
def logEvent (e : LogEvent) (s : State) : State :=
  { s with out := { s.out with log := s.out.log ++ [e] } }

/-- A record at severity Error (R9). -/
def logErr (e : ErrEvent) (s : State) : State := logEvent (.err e) s

/-- The answer to a read leaves the block. -/
def sendReply (r : Reply) (s : State) : State :=
  { s with out := { s.out with replies := s.out.replies ++ [r] } }

/-- A byte read is put on the bus. -/
def noteBusRead (a : Word) (s : State) : State :=
  { s with out := { s.out with busReads := s.out.busReads ++ [a] } }

/-- A signal of Table R8 goes to the core. -/
def signalCore (c : CoreSignal) (s : State) : State :=
  { s with out := { s.out with coreSignals := s.out.coreSignals ++ [c] } }

/-! ### The retired-instruction counter (R35) and the end of an instruction (R130) -/

/-- `InstRet()[31:0]`: the counter of COUNTER_WIDTH bits, its low 32 bits (R35, D17; log 6). -/
def counterSample (s : State) : Word := BitVec.ofNat 32 (s.instret % 2 ^ s.plat.counterWidth)

/-- The core counts: by how much is a free natural number (R35, U11; log 6). -/
def advanceCounter (s : State) : State :=
  { s with instret := s.instret + Config.retireAdvance s.tick, tick := s.tick + 1 }

/-- `pc <- t` of Table R8. -/
def setPc (target : Word) (s : State) : State := { s with pc := target }

/-- The end of every dispatch: `pc <- pc + 4` and the retirement of the instruction (R130, D19; log 23). -/
def retire (s : State) : State :=
  advanceCounter (setPc (s.pc + 4#32) s)

/-! ### Memories and the bus -/

/-- One of the two memories. -/
def memOf (t : MemTarget) (s : State) : Memory :=
  match t with
  | .imem => s.imem
  | .dmem => s.dmem

/-- Replaces one of the two memories. -/
def setMem (t : MemTarget) (m : Memory) (s : State) : State :=
  match t with
  | .imem => { s with imem := m }
  | .dmem => { s with dmem := m }

/-- IMEM_SIZE or DMEM_SIZE. -/
def memSize (p : Config.Platform) : MemTarget → Nat
  | .imem => p.imemSize
  | .dmem => p.dmemSize

/-- IMEM_BASE or DMEM_BASE. -/
def memBase (p : Config.Platform) : MemTarget → Word
  | .imem => p.imemBase
  | .dmem => p.dmemBase

/-- The byte offset of a bus address from a base, 32-bit (log 10). -/
def windowOffset (base a : Word) : Nat := (a - base).toNat

/-- The bus address lies in the window of `size` bytes at `base` (log 10). -/
def inWindow (base : Word) (size : Nat) (a : Word) : Bool := decide (windowOffset base a < size)

/-- What the bus maps an address to (R60, R66). -/
inductive BusTarget where
  | registerFile
  | memory (t : MemTarget) (offset : Nat)
  | other
  | nothing
deriving DecidableEq, Repr

/-- The bus address map of the parameters (R60, R66; log 10). -/
def busTarget (p : Config.Platform) (a : Word) : BusTarget :=
  if inWindow p.ctrlBase Config.regfileSpan a then .registerFile
  else if inWindow p.imemBase p.imemSize a then .memory .imem (windowOffset p.imemBase a)
  else if inWindow p.dmemBase p.dmemSize a then .memory .dmem (windowOffset p.dmemBase a)
  else if p.otherWindows.any (fun w => inWindow w.base w.size a) then .other
  else .nothing

/-- `MemRead(a, 1)` of Table R8 (R63): the byte and the state after the read, or why the bus has no answer. A window
that is neither memory nor register file answers with a free byte (R41, D32; log 10). -/
def busRead (a : Word) (s : State) : Except Refusal (Byte × State) :=
  match busTarget s.plat a with
  | .registerFile => .error (.busReadOfRegisterFile a)
  | .memory t off => .ok ((memOf t s).read off, noteBusRead a s)
  | .other => .ok (Config.busByte s.tick a, noteBusRead a { s with tick := s.tick + 1 })
  | .nothing => .error (.busUnanswered a)

/-! ### The interrupt aggregator (42_interrupt_aggregator.md); the lines are a function of the two sets (R25) -/

/-- R151. -/
def writePendingClear (mask : BitVec 4) (s : State) : State :=
  { s with pending := clearBits s.pending mask }

/-- R152. -/
def writeEnable (mask : BitVec 4) (s : State) : State := { s with enabled := mask }

/-- R153. -/
def writeTestSet (mask : BitVec 4) (s : State) : State :=
  { s with pending := setBits s.pending mask }

/-- `raise` of R154. -/
def raiseIrq (k : Source) (s : State) : State :=
  { s with pending := setBits s.pending (sourceMask k) }

/-! ### In the place of exception entry (R236): the handshakes of the mode controller -/

/-- R166: the log record of a handshake, Info in mode Run and Error otherwise. -/
def checkRun (k : Source) (s : State) : State :=
  if s.mode = modeRun then logEvent (.handshake k) s else logErr (.handshakeNotInRun k) s

/-- The core is halted and the mode set. -/
def haltIn (mode : BitVec 2) (s : State) : State := { s with mode := mode, halted := true }

/-- What the three handshakes share (R163 to R165, R236): the check, the new mode, the halt, the interrupt. Nothing is
saved and the pc does not move. -/
def handshake (k : Source) (newMode : BitVec 2) (s : State) : State :=
  raiseIrq k (haltIn newMode (checkRun k s))

/-- R163. -/
def hostRequest (s : State) : State := handshake .hostReq modeFreeze s

/-- R164. -/
def completionNotify (s : State) : State := handshake .finish modeFreezeReset s

/-- `fault(kind)` of R165. -/
def reportFault (kind : FaultKind) (s : State) : State := handshake (faultSource kind) modeFreezeReset s

/-! ### In the place of exception return (R237): the Control write -/

/-- R162: the start PC of a payload, a 32-bit sum that wraps. -/
def startPC (p : Config.Platform) (pay : BitVec 17) : Word :=
  p.imemBase + (pay.setWidth 32 <<< p.pcStartShift.amount)

/-- The core-owned values a reset leaves unspecified: registers and counter are free values (R32, R35, D21; log 4). -/
def forgetCoreState (s : State) : State :=
  { s with
    x := Config.resetRegisters s.tick
    instret := Config.resetCounter s.tick
    tick := s.tick + 1 }

/-- `CoreReset()` of Table R8: all core-owned state but `halted` (R161, D21; log 4). -/
def coreReset (s : State) : State := forgetCoreState (signalCore .reset s)

/-- Step 3 of R161: the halted flag is cleared and the core told to resume. -/
def resumeCore (s : State) : State := signalCore .resume { s with halted := false }

/-- Step 1 of R161. -/
def controlHalt (new prev : BitVec 2) (s : State) : State :=
  if prev = modeRun ∧ new ≠ modeRun then { s with halted := true } else s

/-- Step 2 of R161. -/
def controlReset (new prev : BitVec 2) (pay : BitVec 17) (s : State) : State :=
  if softwareResetFlag prev = true ∧ softwareResetFlag new = false then
    setPc (startPC s.plat pay) (coreReset s)
  else s

/-- Step 3 of R161. -/
def controlResume (new prev : BitVec 2) (s : State) : State :=
  if prev ≠ modeRun ∧ new = modeRun then resumeCore s else s

/-- Step 4 of R161: the mode and the payload are stored (D4; log 13). -/
def controlStore (new : BitVec 2) (pay : BitVec 17) (s : State) : State :=
  { s with mode := new, pcStart := pay }

/-- The mode field of a Control word (D2; log 13). -/
def controlMode (v : Word) : BitVec 2 := v.extractLsb' 0 2

/-- The payload field of a Control word (D2; log 13). -/
def controlPayload (v : Word) : BitVec 17 := v.extractLsb' 2 17

/-- The Control-write transition, R161: steps 1 to 3 test the previous mode, step 4 overwrites it. -/
def controlWrite (v : Word) (s : State) : State :=
  controlStore (controlMode v) (controlPayload v)
    (controlResume (controlMode v) s.mode
      (controlReset (controlMode v) s.mode (controlPayload v)
        (controlHalt (controlMode v) s.mode s)))

/-! ### The block's reset (R260) -/

/-- R260, R261, Table R39: block-owned state takes its reset values, the core is left halted, core-owned values are
unspecified and so free, the outputs start empty (D36; log 5). The parameters and the turns to come stay. -/
def blockReset (s : State) : State :=
  { State.reset with
    plat := s.plat
    x := Config.resetRegisters s.tick
    pc := Config.resetPc s.tick
    instret := Config.resetCounter s.tick
    imem := Memory.ofCells s.plat.imemSize (Config.resetImem s.tick)
    dmem := Memory.ofCells s.plat.dmemSize (Config.resetDmem s.tick)
    schedule := s.schedule
    tick := s.tick + 1 }

end Sys2Proof.Machine
end

