-- ==== Sys2Proof/Machine/ScrubEngine.lean ====
section
/-!
DEFINITION. The memory-scrub engine (44_memory_scrub.md): acceptance of a request, the erase, and the completion at a
synchronisation point.
-/
namespace Sys2Proof.Machine

/-- The page size of a memory (R185). -/
def pageSize : MemTarget → Nat
  | .imem => Config.imemPage
  | .dmem => Config.dmemPage

/-- The memory a selector bit names: 0 instruction memory, 1 data memory (R28, D5; log 15). -/
def targetOfSelector (sel : BitVec 1) : MemTarget := if sel = 0#1 then .imem else .dmem

/-- The request an acceptance captures (R180). -/
def capturedRequest (s : State) : ScrubRequest where
  target := targetOfSelector s.initSel
  startAddress := s.initStart
  endAddress := s.initEnd

/-- `Accept()` of R180: the request is queued (D8; log 16), the status goes to Pending, memory is not touched. -/
def acceptScrub (s : State) : State :=
  { s with
    scrubQueue := s.scrubQueue ++ [capturedRequest s]
    initStatus := { pending := true, done := false } }

/-- Rounding down to a page boundary, on unbounded naturals (R183, D6). -/
def roundDown (page n : Nat) : Nat := n - n % page

/-- Rounding up to a page boundary, on unbounded naturals (R183, D6). -/
def roundUp (page n : Nat) : Nat := roundDown page (n + page - 1)

/-- `alignedStart` of R183. -/
def alignedStart (r : ScrubRequest) : Nat := roundDown (pageSize r.target) r.startAddress.toNat

/-- `alignedEnd` of R183; it is not cut to 22 bits. -/
def alignedEnd (r : ScrubRequest) : Nat := roundUp (pageSize r.target) r.endAddress.toNat

/-- How many pages the loop of R183 erases. -/
def pageCount (r : ScrubRequest) : Nat := (alignedEnd r - alignedStart r) / pageSize r.target

/-- The loop of R183: `n` pages from offset `a`, each filled with the erase byte. -/
def erasePages (page : Nat) (b : Byte) : Nat → Nat → Memory → Memory
  | 0, _, m => m
  | n + 1, a, m => erasePages page b n (a + page) (m.fill a page b)

/-- `Erase(req)` of R183 on the target memory. -/
def eraseMemory (b : Byte) (r : ScrubRequest) (m : Memory) : Memory :=
  erasePages (pageSize r.target) b (pageCount r) (alignedStart r) m

/-- Some page of the aligned range lies outside the extent of the target (R68, R187, D10). -/
def beyondExtent (p : Config.Platform) (r : ScrubRequest) : Bool :=
  decide (alignedStart r < alignedEnd r) && decide (memSize p r.target < alignedEnd r)

/-- The request is off the queue and the status shows Done (R182, R184). -/
def closeRequest (rest : List ScrubRequest) (s : State) : State :=
  { s with scrubQueue := rest, initStatus := { pending := false, done := true } }

/-- `Complete()` of R182 for the oldest request: the whole erase and the status change in one action; a range beyond the
extent has no meaning. With nothing queued the action is not enabled and nothing happens. -/
def completeScrub (s : State) : Host.Outcome State Fault Refusal :=
  match s.scrubQueue with
  | [] => .next s
  | r :: rest =>
    if beyondExtent s.plat r then .refused (.scrubBeyondExtent r)
    else .next (closeRequest rest (setMem r.target (eraseMemory s.plat.eraseByte r (memOf r.target s)) s))

end Sys2Proof.Machine
end

