-- ==== Sys2Proof/Machine/RegisterFile.lean ====
section
/-!
DEFINITION. The ControlBlockRegisterFile (45_register_file.md): the map of offsets to registers (Table R38), what a read of each
returns, what a write of each does, and the bus access.
-/
namespace Sys2Proof.Machine

/-- The offsets of Table R38. -/
def regOffset : CtrlReg → BitVec 10
  | .intrState => 0x00#10
  | .intrEnable => 0x04#10
  | .intrTest => 0x08#10
  | .control => 0x0C#10
  | .memoryBankControl => 0x10#10
  | .errorStatus => 0x14#10
  | .initStart => 0x18#10
  | .initEnd => 0x1C#10
  | .initStatus => 0x20#10

/-- The nine registers, in the order of Table R38. -/
def allRegs : List CtrlReg :=
  [.intrState, .intrEnable, .intrTest, .control, .memoryBankControl, .errorStatus, .initStart, .initEnd, .initStatus]

/-- The register at an offset, if one is defined there (R211). -/
def regAt (off : BitVec 10) : Option CtrlReg := allRegs.find? (fun r => regOffset r == off)

/-- InitStatus as read (R209). -/
def statusWord (st : InitStatus) : Word := (BitVec.ofBool st.done ++ BitVec.ofBool st.pending).setWidth 32

/-- What a read of each register returns (R201 to R210); unnamed bits are zero (D33). A read changes no state (R65). -/
def regValue (r : CtrlReg) (s : State) : Word :=
  match r with
  | .intrState => s.pending.setWidth 32
  | .intrEnable => s.enabled.setWidth 32
  | .intrTest => 0#32
  | .control => (s.pcStart ++ s.mode).setWidth 32
  | .memoryBankControl => s.memBankCtrl.setWidth 32
  | .errorStatus => s.errorStatus.setWidth 32
  | .initStart => (s.initSel ++ s.initStart).setWidth 32
  | .initEnd => s.initEnd.setWidth 32
  | .initStatus => statusWord s.initStatus

/-- The write of InitEnd: the address is latched first, then Valid triggers the acceptance (R208, R180). -/
def writeInitEnd (v : Word) (s : State) : State :=
  if v.getLsbD 22 then acceptScrub { s with initEnd := v.extractLsb' 0 22 }
  else { s with initEnd := v.extractLsb' 0 22 }

/-- What a write of each register does (R201 to R209). -/
def regStore (r : CtrlReg) (v : Word) (s : State) : State :=
  match r with
  | .intrState => writePendingClear (v.extractLsb' 0 4) s
  | .intrEnable => writeEnable (v.extractLsb' 0 4) s
  | .intrTest => writeTestSet (v.extractLsb' 0 4) s
  | .control => controlWrite v s
  | .memoryBankControl => { s with memBankCtrl := v.extractLsb' 0 12 }
  | .errorStatus => { s with errorStatus := v.extractLsb' 0 14 }
  | .initStart => { s with initStart := v.extractLsb' 0 22, initSel := v.extractLsb' 22 1 }
  | .initEnd => writeInitEnd v s
  | .initStatus => s

/-- The access is a naturally aligned 32-bit word (R62, R212). -/
def wordAccess (off : BitVec 10) (width : AccessWidth) : Bool :=
  width == .word && off.extractLsb' 0 2 == 0#2

/-- The value a word read of an offset returns; 0 where no register is defined (R211, D12; log 19). -/
def offsetValue (off : BitVec 10) (s : State) : Word :=
  match regAt off with
  | some r => regValue r s
  | none => 0#32

/-- The state after a word write of an offset; unchanged where no register is defined (R211, D12; log 19). -/
def offsetStore (off : BitVec 10) (v : Word) (s : State) : State :=
  match regAt off with
  | some r => regStore r v s
  | none => s

/-- A read access of the bus (R200); anything but an aligned word has no meaning (R212, D13). -/
def busReadAccess (off : BitVec 10) (width : AccessWidth) (s : State) : Host.Outcome State Fault Refusal :=
  if wordAccess off width then .next (sendReply (.register off (offsetValue off s)) s)
  else .refused (.accessNotWord off)

/-- A write access of the bus (R200); anything but an aligned word has no meaning (R212, D13). -/
def busWriteAccess (off : BitVec 10) (width : AccessWidth) (v : Word) (s : State) :
    Host.Outcome State Fault Refusal :=
  if wordAccess off width then .next (offsetStore off v s) else .refused (.accessNotWord off)

end Sys2Proof.Machine
end

