-- ==== Sys2Proof/Machine/Actions.lean ====
section
/-!
DEFINITION. The actions of R4 other than the dispatch, who moves next, and the core's fetch of an instruction.
-/
namespace Sys2Proof.Machine

/-! ### The counter CSRs (R240) -/

/-- The CSR is one of the block's two. -/
def blockCsr (p : Config.Platform) (csr : BitVec 12) : Bool := csr == p.csrCountA || csr == p.csrCountB

/-- A CSR read: both addresses answer the counter (R240). A halted core makes none (D30). What else the core's CSR
instruction does is the core's (log 32); the counter may move with it (log 6). -/
def counterRead (csr : BitVec 12) (s : State) : Host.Outcome State Fault Refusal :=
  if s.halted then .next s
  else if blockCsr s.plat csr then .next (advanceCounter (sendReply (.counter csr (counterSample s)) s))
  else .refused (.csrNotOfBlock csr)

/-- A CSR write: accepted and ignored (R240). -/
def counterWrite (csr : BitVec 12) (_ : Word) (s : State) : Host.Outcome State Fault Refusal :=
  if s.halted then .next s
  else if blockCsr s.plat csr then .next (advanceCounter s)
  else .refused (.csrNotOfBlock csr)

/-! ### The platform -/

/-- The fault input, which is driven only where the platform wires it (R165, D24; log 26). -/
def faultInput (kind : FaultKind) (s : State) : State :=
  if s.plat.faultInputWired then reportFault kind s else s

/-- The platform loads bytes into a memory, inside its extent (R262, R273; log 33). -/
def loadBytes (t : MemTarget) (off : Nat) (bs : List Byte) (s : State) : Host.Outcome State Fault Refusal :=
  if off + bs.length ≤ memSize s.plat t then .next (setMem t ((memOf t s).store off bs) s)
  else .refused (.loadBeyondExtent t off)

/-- One action of an agent other than the dispatching core (R4). -/
def perform (a : EnvAction) (s : State) : Host.Outcome State Fault Refusal :=
  match a with
  | .regRead off width => busReadAccess off width s
  | .regWrite off width v => busWriteAccess off width v s
  | .faultReport kind => .next (faultInput kind s)
  | .syncPoint => completeScrub s
  | .csrRead csr => counterRead csr s
  | .csrWrite csr v => counterWrite csr v s
  | .blockReset => .next (blockReset s)
  | .load t off bs => loadBytes t off bs s

/-! ### Whose turn it is (R4, R41, D31; log 7) -/

/-- The head of the schedule; with the schedule exhausted, a queued scrub completes first (R181), then the core goes on
unless it is halted. -/
def nextTurn (s : State) : Option Turn :=
  match s.schedule with
  | t :: _ => some t
  | [] =>
    if s.scrubQueue ≠ [] then some (.env .syncPoint)
    else if s.halted then none
    else some .core

/-- The turn is taken off the schedule. -/
def popTurn (s : State) : State := { s with schedule := s.schedule.tail }

/-! ### The fetch of the core (log 9) -/

/-- The offset in instruction memory of the word at a pc: the pc is word aligned and the four bytes lie in the window at IMEM_BASE
(R60, U15). -/
def fetchOffset (p : Config.Platform) (pc : Word) : Except Refusal Nat :=
  if pc.extractLsb' 0 2 ≠ 0#2 then .error (.fetchMisaligned pc)
  else if windowOffset p.imemBase pc + 4 ≤ p.imemSize then .ok (windowOffset p.imemBase pc)
  else .error (.fetchOutsideImem pc)

/-- The four bytes of instruction memory from an offset. -/
def fetchBytes (off : Nat) (s : State) : List Byte :=
  [s.imem.read off, s.imem.read (off + 1), s.imem.read (off + 2), s.imem.read (off + 3)]

/-- The instruction at the pc, or why this spec has none there: a word without the block's opcode is the core's own (R91, R3). -/
def fetch (s : State) : Except Refusal Instr :=
  match fetchOffset s.plat s.pc with
  | .error r => .error r
  | .ok off =>
    match decode (fetchBytes off s) with
    | .ok (i, _) => .ok i
    | .error (.notCustomOpcode w) => .error (.coreOwnInstruction w)
    | .error .tooShort => .error (.fetchOutsideImem s.pc)

/-- A word stored in instruction memory where the core fetches next. -/
def placeWord (w : Word) (s : State) : State :=
  { s with imem := s.imem.store (windowOffset s.plat.imemBase s.pc) (bytesOfWord w) }

/-- The core is released and has the next turn: mode Run and not halted, as after a Control write of mode Run (R161). -/
def releaseCore (s : State) : State :=
  { s with mode := modeRun, halted := false, schedule := .core :: s.schedule }

end Sys2Proof.Machine
end

