-- ==== Sys2Proof/Machine/Operands.lean ====
section
/-!
DEFINITION. The operand forms of the four instructions: the level, pointer and string of `simprint` (R131, R139) and the
literal selector of `xcount` (R95).
-/
namespace Sys2Proof.Machine

/-- The severity a level word selects; a level above 4 selects none (R131). The comparison is unsigned on all 32 bits. -/
def severityOfLevel (level : Word) : Option Severity :=
  if level = 0#32 then some .error
  else if level = 1#32 then some .warning
  else if level = 2#32 then some .info
  else if level = 3#32 then some .debug
  else if level = 4#32 then some .noisy
  else none

/-- The number of a severity (R131, LOG_LEVELS of Table R5). -/
def levelOfSeverity : Severity → Word
  | .error => 0#32
  | .warning => 1#32
  | .info => 2#32
  | .debug => 3#32
  | .noisy => 4#32

/-- `b & 0x7F` (R131). -/
def maskChar (b : Byte) : BitVec 7 := b.setWidth 7

/-- The loop of `simprint` (R131): at most `n` byte reads at ascending addresses that wrap at 2^32 (D15; log 21), each masked to
seven bits, left at the first masked zero (D14; log 21). Answers the characters and the state after the reads. -/
def readText : Nat → Word → State → Except Refusal (List (BitVec 7) × State)
  | 0, _, s => .ok ([], s)
  | n + 1, ptr, s =>
    match busRead ptr s with
    | .error r => .error r
    | .ok (b, s') =>
      if maskChar b = 0#7 then .ok ([], s')
      else
        match readText n (ptr + 1#32) s' with
        | .error r => .error r
        | .ok (cs, s'') => .ok (maskChar b :: cs, s'')

end Sys2Proof.Machine
end

