-- ==== Sys2Proof/Machine/CustomInstructions.lean ====
section
/-!
DEFINITION. The meanings of the rows of the opcode table (41_custom_instructions.md): each is the handler of its funct3 and
then the end of the dispatch (R130). No instruction traps (R136, R230).
-/
namespace Sys2Proof.Machine

/-- What an instruction answers. -/
abbrev Result := Host.Outcome State Fault Refusal

/-- R131: the level register is checked first; a level above 4 logs and reads nothing. -/
def execSimprint (rd rs1 rs2 : RegIdx) (s : State) : Result :=
  match severityOfLevel (readReg rd s) with
  | none => .next (retire (logErr (.badLogLevel (readReg rd s)) s))
  | some sev =>
    match readText Config.simprintMax (readReg rs1 s) s with
    | .error r => .refused r
    | .ok (text, s') => .next (retire (logEvent (.print sev text (readReg rs2 s)) s'))

/-- `Xcount(rd, rs1)` of R132, both forms: the selector decides between the register write and the error record. -/
def countOrReject (rd sel : RegIdx) (s : State) : State :=
  if validSelector sel then writeReg rd (counterSample s) s else logErr (.badCountSelector sel) s

/-- R132, the valid form: both selectors answer the same counter. -/
def execXcount (rd sel : RegIdx) (s : State) : Result := .next (retire (countOrReject rd sel s))

/-- R132 (d), the malformed form: one error record, no register write. -/
def execXcountBadsel (rd sel : RegIdx) (s : State) : Result := .next (retire (countOrReject rd sel s))

/-- R133: `hostRequest()` if a control block is attached, otherwise nothing. -/
def execHostreq (s : State) : Result :=
  .next (retire (if Config.controlBlockAttached then hostRequest s else s))

/-- R134: `completionNotify()` if a control block is attached, otherwise nothing. -/
def execFinish (s : State) : Result :=
  .next (retire (if Config.controlBlockAttached then completionNotify s else s))

/-- R135: exactly one error record and nothing else. -/
def execUnrecognised (funct3 : BitVec 3) (s : State) : Result :=
  .next (retire (logErr (.unknownFunct3 funct3) s))

end Sys2Proof.Machine
end

