-- ==== Sys2Proof/Machine/Dispatch.lean ====
section
/-! DEFINITION. The dispatch of R130: one arm per constructor of `Instr`, each one call of its meaning. -/
namespace Sys2Proof.Machine

def exec (i : Instr) (s : State) : Host.Outcome State Fault Refusal :=
  match i with
  | .simprint rd rs1 rs2 => Sys2Proof.Machine.execSimprint rd rs1 rs2 s
  | .xcount rd sel => Sys2Proof.Machine.execXcount rd sel s
  | .xcountBadsel rd sel => Sys2Proof.Machine.execXcountBadsel rd sel s
  | .hostreq => Sys2Proof.Machine.execHostreq s
  | .finish => Sys2Proof.Machine.execFinish s
  | .unrecognised funct3 => Sys2Proof.Machine.execUnrecognised funct3 s

end Sys2Proof.Machine
end

