-- ==== Sys2Proof/Machine/Step.lean ====
section
/-!
DEFINITION. One step: the agent whose turn it is performs one atomic action (R4). A halted core executes nothing (R34, D30).
-/
namespace Sys2Proof.Machine

/-- The core's turn: fetch, decode, dispatch (R130), or nothing while halted. -/
def coreTurn (s : State) : Host.Outcome State Fault Refusal :=
  if s.halted then .next s
  else
    match fetch s with
    | .error r => .refused r
    | .ok i => exec i s

/-- One turn of one agent. -/
def takeTurn (t : Turn) (s : State) : Host.Outcome State Fault Refusal :=
  match t with
  | .core => coreTurn s
  | .env a => perform a s

/-- One step of the machine. With nobody to move (core halted, nothing queued, nothing scheduled) the machine waits (R244). -/
def step (s : State) : Host.Outcome State Fault Refusal :=
  match nextTurn s with
  | none => .next s
  | some t => takeTurn t (popTurn s)

/-- `s` with an instruction of the opcode table placed where the core fetches, the core released and given the next turn
(log 8). -/
def State.withFetchWord (s : State) (nbits w : Nat) : State :=
  releaseCore (placeWord (tableWord nbits w) s)

end Sys2Proof.Machine
end

