-- ==== Sys2Proof/Safety.lean ====
section
/-!
DEFINITION. What claims about runs are stated in: the invariants of R40 and of the memories, the end of a run (R272), the
premises of a run (R274), and the classes of errors (R231).
-/
namespace Sys2Proof.Safety

open Sys2Proof.Machine

/-- I-mode of R40: the core is halted whenever the mode is not Run. -/
abbrev modeHalts (s : State) : Prop := s.mode ≠ modeRun → s.halted = true

/-- The consistent states of Table R167: the core is halted exactly when the mode is not Run. -/
abbrev modeConsistent (s : State) : Prop := s.halted = true ↔ s.mode ≠ modeRun

/-- I-status of R40: Pending and Done are never both true. -/
abbrev statusExclusive (s : State) : Prop := ¬ (s.initStatus.pending = true ∧ s.initStatus.done = true)

/-- The life cycle of R184 against the queue: Pending is shown only while a request is queued, and before the first
acceptance nothing is queued. -/
abbrev statusMatchesQueue (s : State) : Prop :=
  (s.initStatus.pending = true → s.scrubQueue ≠ []) ∧
    (s.initStatus.pending = false ∧ s.initStatus.done = false → s.scrubQueue = [])

/-- Both memories are in canonical form and inside their extents (R37). -/
abbrev memoriesSound (s : State) : Prop :=
  s.imem.wf ∧ s.dmem.wf ∧ s.imem.within s.plat.imemSize ∧ s.dmem.within s.plat.dmemSize

/-- The invariants together. -/
abbrev Inv (s : State) : Prop :=
  modeConsistent s ∧ statusExclusive s ∧ statusMatchesQueue s ∧ memoriesSound s

/-- The end of a run, R272: halted, mode not Run, nothing queued. -/
abbrev runEnded (s : State) : Prop := s.halted = true ∧ s.mode ≠ modeRun ∧ s.scrubQueue = []

/-- The causes of an end of run that R272 reads from `pending` and `mode`. -/
inductive EndCause where
  | completed
  | serviceRequest
  | faultReported
  | hostFreeze
deriving DecidableEq, Repr

/-- The cause of an end of run (R272). DESIGN CHOICE (log 39): where several causes of that rule hold at once (Finish and a fault bit
pending in mode 3) it gives no precedence, and the model answers the one the rule names first. -/
def endCause (s : State) : EndCause :=
  if s.pending.getLsbD (sourceBit .finish) ∧ s.mode = modeFreezeReset then .completed
  else if s.pending.getLsbD (sourceBit .hostReq) ∧ s.mode = modeFreeze then .serviceRequest
  else if (s.pending.getLsbD (sourceBit .instructionFault) ∨ s.pending.getLsbD (sourceBit .dataFault)) ∧
      s.mode = modeFreezeReset then .faultReported
  else .hostFreeze

/-- P-running of R274: the start of a fragment in a running core. -/
abbrev running (s : State) : Prop := s.mode = modeRun ∧ s.halted = false

/-- The core's turn is the next one. -/
abbrev coreIsNext (s : State) : Prop := nextTurn s = some .core

/-- The classes of error of R231 that are logged. -/
inductive ErrClass where
  | malformedRequest
  | inconsistentState
deriving DecidableEq, Repr

/-- The class of an error record (Table R232). -/
def errClass : ErrEvent → ErrClass
  | .unknownFunct3 _ => .malformedRequest
  | .badLogLevel _ => .malformedRequest
  | .badCountSelector _ => .malformedRequest
  | .handshakeNotInRun _ => .inconsistentState

/-! ### What `simprint` reads (R131) -/

/-- The byte a bus address shows where the bus maps it to one of the two memories. -/
def byteAt (s : State) (a : Word) : Byte :=
  match busTarget s.plat a with
  | .memory t off => (memOf t s).read off
  | _ => 0#8

/-- The addresses of the first `n` byte reads from a pointer, wrapping at 2^32 (R63). -/
def addressesFrom (ptr : Word) (n : Nat) : List Word :=
  (List.range n).map (fun i => ptr + BitVec.ofNat 32 i)

/-- The text at a pointer: at most 255 masked bytes, up to the first zero (R131). -/
def textAt (s : State) (ptr : Word) : List (BitVec 7) :=
  ((addressesFrom ptr Config.simprintMax).map (fun a => maskChar (byteAt s a))).takeWhile (fun c => c != 0#7)

/-- How many bytes `simprint` reads for a text: its terminator too, at most 255 in all (R131 (a), (b)). -/
def readsFor (text : List (BitVec 7)) : Nat := min Config.simprintMax (text.length + 1)

/-- The bus maps the address to one of the two memories. -/
abbrev mapsToMemory (p : Config.Platform) (a : Word) : Prop :=
  ∃ t, ∃ off, busTarget p a = .memory t off

/-- The bus has an answer for a byte read at the address: a memory, or another window of the platform. -/
abbrev answered (p : Config.Platform) (a : Word) : Prop :=
  busTarget p a ≠ .registerFile ∧ busTarget p a ≠ .nothing

/-! ### Which turn does what -/

/-- The turn is a bus write to the register file at an offset. -/
abbrev writesAt (off : BitVec 10) (t : Turn) : Prop :=
  ∃ width, ∃ v, t = .env (.regWrite off width v)

/-- The turn is a Control write that clears SoftwareReset, at which step 2 of R161 resets the core. -/
abbrev resetsCore (s : State) (t : Turn) : Prop :=
  ∃ v, t = .env (.regWrite 0x0C#10 .word v) ∧ s.mode.getLsbD 1 = true ∧ v.getLsbD 1 = false

/-- The turn accesses MemoryBankControl or ErrorStatus, or resets the block. -/
def touchesProtection : Turn → Bool
  | .core => false
  | .env (.regRead off _) => off == 0x10#10 || off == 0x14#10
  | .env (.regWrite off _ _) => off == 0x10#10 || off == 0x14#10
  | .env .blockReset => true
  | .env _ => false

/-- The stored, unused fields replaced (R26, R27). -/
def withProtection (bank : BitVec 12) (err : BitVec 14) (s : State) : State :=
  { s with memBankCtrl := bank, errorStatus := err }

/-! ### The opcode table's rows (opcode_table.json) -/

/-- The bits a row fixes. -/
def rowMask : Instr → Word
  | .simprint _ _ _ => 0x0000707F#32
  | .xcount _ _ => 0x000F707F#32
  | .xcountBadsel _ _ => 0x0000707F#32
  | .hostreq => 0x0000707F#32
  | .finish => 0x0000707F#32
  | .unrecognised _ => 0x0000407F#32

/-- The values of the bits a row fixes. -/
def rowMatch : Instr → Word
  | .simprint _ _ _ => 0x0000007B#32
  | .xcount _ _ => 0x0000107B#32
  | .xcountBadsel _ _ => 0x0000107B#32
  | .hostreq => 0x0000207B#32
  | .finish => 0x0000307B#32
  | .unrecognised _ => 0x0000407B#32

end Sys2Proof.Safety
end

