-- ==== Sys2Proof/Certificates/Slice0/Obligations.lean ====
section
/-!
DEFINITION. The statements for the provers, in the order of the spec's files: encoding, fetch and step, the instructions, the
aggregator, the mode controller, the scrub engine, the register file, the counter, reset, and the whole-machine rules.
The counter's advance in a next state is a free natural number (log 6); no statement rests on its value.
-/

section

open Sys2Proof Sys2Proof.Machine Sys2Proof.Safety

/-! ### Encoding (30_encoding.md, 40_bitfield_codec.md) -/

/-- Words written out from R90 and R100, one or more of each row, and one word of the core's own. That the
unrecognised word's other fields do not matter is D22 (log 24). -/
def Obligations.SpecWordsDecode : Prop :=
  decodeWord 0x00C5857B#32 = .ok (.simprint 10#5 11#5 12#5) ∧
  decodeWord 0x000012FB#32 = .ok (.xcount 5#5 0#5) ∧
  decodeWord 0x0000937B#32 = .ok (.xcount 6#5 1#5) ∧
  decodeWord 0x000113FB#32 = .ok (.xcountBadsel 7#5 2#5) ∧
  decodeWord 0x0000207B#32 = .ok .hostreq ∧
  decodeWord 0x0000307B#32 = .ok .finish ∧
  decodeWord 0x005251FB#32 = .ok (.unrecognised 5#3) ∧
  decodeWord 0x00000073#32 = .error (.notCustomOpcode 0x00000073#32)

/-- Decoding the encoded bytes of any well-formed instruction gives it back, with the rest of the bytes. -/
def Obligations.DecodeOfEncodeIsIdentity : Prop :=
  ∀ (i : Instr) (rest : List Byte), i.wellFormed = true → decode (encodeBytes i ++ rest) = .ok (i, rest)

/-- R120: each output is the shift and mask of the rule, with its corner cases and its worked example. -/
def Obligations.ExtractionIsShiftAndMask : Prop :=
  (∀ w : Word,
    (extract w).rd.toNat = (w.toNat >>> 7) &&& 0x1F ∧
    (extract w).funct3.toNat = (w.toNat >>> 12) &&& 0x7 ∧
    (extract w).rs1.toNat = (w.toNat >>> 15) &&& 0x1F ∧
    (extract w).rs2.toNat = (w.toNat >>> 20) &&& 0x1F) ∧
  (∀ w w' : Word, w &&& 0x01FFFF80#32 = w' &&& 0x01FFFF80#32 → extract w = extract w') ∧
  extract 0xFFFFFFFF#32 = { rd := 31#5, funct3 := 7#3, rs1 := 31#5, rs2 := 31#5 } ∧
  extract 0#32 = { rd := 0#5, funct3 := 0#3, rs1 := 0#5, rs2 := 0#5 } ∧
  extract 0x00C5857B#32 = { rd := 10#5, funct3 := 0#3, rs1 := 11#5, rs2 := 12#5 }

/-- R123: any four field values and any bits [31:25] make a word of the block that extracts to exactly those values. -/
def Obligations.EveryFieldCombinationIsRecovered : Prop :=
  ∀ (f7 : BitVec 7) (rs2 rs1 : RegIdx) (f3 : BitVec 3) (rd : RegIdx),
    matchesPattern (encodeFields f7 rs2 rs1 f3 rd) = true ∧
    extract (encodeFields f7 rs2 rs1 f3 rd) = { rd := rd, funct3 := f3, rs1 := rs1, rs2 := rs2 } ∧
    (encodeFields f7 rs2 rs1 f3 rd).toNat =
      f7.toNat * 2 ^ 25 + rs2.toNat * 2 ^ 20 + rs1.toNat * 2 ^ 15 + f3.toNat * 2 ^ 12 + rd.toNat * 2 ^ 7 + 0x7B

/-- R91: a word is an instruction of the block exactly when its low seven bits are 0x7B; every other word is the core's. -/
def Obligations.PatternSelectsTheBlocksWords : Prop :=
  ∀ w : Word,
    (w &&& 0x7F#32 = 0x7B#32 → ∃ i, decodeWord w = .ok i ∧ i.wellFormed = true) ∧
    (w &&& 0x7F#32 ≠ 0x7B#32 → decodeWord w = .error (.notCustomOpcode w))

/-- The decoder follows opcode_table.json: a decoded word matches its row's mask, the valid `xcount` row being tried before the
malformed one, and its operands are the word's fields. -/
def Obligations.DecodedWordMatchesItsTableRow : Prop :=
  ∀ (w : Word) (i : Instr), decodeWord w = .ok i →
    w &&& rowMask i = rowMatch i ∧
    (match i with
      | .simprint rd rs1 rs2 =>
        rd = w.extractLsb' 7 5 ∧ rs1 = w.extractLsb' 15 5 ∧ rs2 = w.extractLsb' 20 5
      | .xcount rd sel => rd = w.extractLsb' 7 5 ∧ sel = w.extractLsb' 15 5
      | .xcountBadsel rd sel =>
        rd = w.extractLsb' 7 5 ∧ sel = w.extractLsb' 15 5 ∧ w &&& 0x000F707F#32 ≠ 0x0000107B#32
      | .hostreq => True
      | .finish => True
      | .unrecognised f => f = w.extractLsb' 12 3)

/-- R96: bits [31:25] never matter; `xcount` ignores rs2 as well; `hostreq`, `finish` and the unrecognised forms ignore every
field but funct3. That any value is accepted there is decision D22 (log 24). -/
def Obligations.UnusedBitsAreIgnored : Prop :=
  ∀ w w' : Word, matchesPattern w = true →
    (w &&& 0x01FFFFFF#32 = w' &&& 0x01FFFFFF#32 → decodeWord w' = decodeWord w) ∧
    ((extract w).funct3 = 1#3 → w &&& 0x000FFFFF#32 = w' &&& 0x000FFFFF#32 → decodeWord w' = decodeWord w) ∧
    (2 ≤ (extract w).funct3.toNat → w &&& 0x0000707F#32 = w' &&& 0x0000707F#32 → decodeWord w' = decodeWord w)

/-- R95: the selector is the value of the rs1 field, 0 and 1 are the valid forms and return the same counter, 2 to 31 is
the malformed form. What rd then holds, the low 32 bits (D17) of the counter before the instruction's own advance, is the
model's choice (log 6), not R95's. -/
def Obligations.SelectorIsTheRs1Field : Prop :=
  (∀ w : Word, matchesPattern w = true → w.extractLsb' 12 3 = 1#3 →
    ((w.extractLsb' 15 5).toNat ≤ 1 → decodeWord w = .ok (.xcount (w.extractLsb' 7 5) (w.extractLsb' 15 5))) ∧
    (2 ≤ (w.extractLsb' 15 5).toNat →
      decodeWord w = .ok (.xcountBadsel (w.extractLsb' 7 5) (w.extractLsb' 15 5)))) ∧
  (∀ (rd : RegIdx) (s : State), exec (.xcount rd 0#5) s = exec (.xcount rd 1#5) s) ∧
  (∀ (rd : RegIdx) (s t : State), rd ≠ 0#5 → exec (.xcount rd 0#5) s = .next t → readReg rd t = counterSample s)

/-- R97: no word under the pattern is without a meaning or traps; a malformed one, by encoding or by level, logs one error, has no
other effect (the pc and the counter move on as after any dispatch), and the core goes on. -/
def Obligations.MalformedRequestsOnlyLog : Prop :=
  (∀ w : Word, matchesPattern w = true → ∃ i, decodeWord w = .ok i) ∧
  (∀ (w : Word) (i : Instr) (s : State), decodeWord w = .ok i →
    (4 ≤ (w.extractLsb' 12 3).toNat ∨ (w.extractLsb' 12 3 = 1#3 ∧ 2 ≤ (w.extractLsb' 15 5).toNat) ∨
      (w.extractLsb' 12 3 = 0#3 ∧ 4 < (readReg (w.extractLsb' 7 5) s).toNat)) →
    ∃ e t, exec i s = .next t ∧
      t = { s with
        out := { s.out with log := s.out.log ++ [.err e] }
        pc := t.pc
        instret := t.instret
        tick := t.tick })

/-! ### Fetch and step -/

/-- On the core's turn, when the four bytes of instruction memory at the pc decode to an instruction, the step is that
instruction's execution, in the state with the turn taken off the schedule. -/
def Obligations.StepRunsTheDecodedInstruction : Prop :=
  ∀ (s : State) (off : Nat) (i : Instr) (rest : List Byte),
    nextTurn s = some .core → s.halted = false → fetchOffset s.plat s.pc = .ok off →
    decode [s.imem.read off, s.imem.read (off + 1), s.imem.read (off + 2), s.imem.read (off + 3)] = .ok (i, rest) →
    step s = exec i { s with schedule := s.schedule.tail }

/-- The same from the encoder's side: where the encoded bytes of a well-formed instruction lie at an aligned pc inside the window
of instruction memory, the step executes it. -/
def Obligations.StepRunsAnEncodedInstruction : Prop :=
  ∀ (s : State) (i : Instr),
    i.wellFormed = true → nextTurn s = some .core → s.halted = false →
    s.pc.toNat % 4 = 0 → (s.pc - s.plat.imemBase).toNat + 4 ≤ s.plat.imemSize →
    (∀ k, k < 4 → s.imem.read ((s.pc - s.plat.imemBase).toNat + k) = ((encode i) >>> (8 * k)).setWidth 8) →
    step s = exec i { s with schedule := s.schedule.tail }

/-- What the core cannot fetch is refused by name (U15; log 9): a misaligned pc, a pc outside instruction memory, a word of the
core's own instruction set. -/
def Obligations.UnfetchableWordsAreRefused : Prop :=
  ∀ s : State, nextTurn s = some .core → s.halted = false →
    (s.pc.toNat % 4 ≠ 0 → step s = .refused (.fetchMisaligned s.pc)) ∧
    (s.pc.toNat % 4 = 0 → s.plat.imemSize < (s.pc - s.plat.imemBase).toNat + 4 →
      step s = .refused (.fetchOutsideImem s.pc)) ∧
    (s.pc.toNat % 4 = 0 → (s.pc - s.plat.imemBase).toNat + 4 ≤ s.plat.imemSize →
      ∀ w : Word, w &&& 0x7F#32 ≠ 0x7B#32 →
        (∀ k, k < 4 → s.imem.read ((s.pc - s.plat.imemBase).toNat + k) = (w >>> (8 * k)).setWidth 8) →
        step s = .refused (.coreOwnInstruction w))

/-- D30 (log 7): on a halted core neither a dispatch nor a counter-CSR access happens; the turn only leaves the schedule. With the run ended
(R272) and nothing scheduled the machine waits (R244). -/
def Obligations.HaltedCoreExecutesNothing : Prop :=
  (∀ (s : State) (t : Turn) (rest : List Turn), s.halted = true → s.schedule = t :: rest →
    (t = .core ∨ (∃ c, t = .env (.csrRead c)) ∨ (∃ c v, t = .env (.csrWrite c v))) →
    step s = .next { s with schedule := rest }) ∧
  (∀ s : State, runEnded s → s.schedule = [] → step s = .next s)

/-- A table word placed by `withFetchWord` is what the very next step executes, in the running state it sets up (log 8). -/
def Obligations.PlacedWordIsExecutedNext : Prop :=
  ∀ (s : State) (nbits w off : Nat) (i : Instr), s.imem.wf → fetchOffset s.plat s.pc = .ok off →
    decodeTableWord nbits w = some i →
    step (s.withFetchWord nbits w) =
      exec i { s with
        imem := s.imem.store off (bytesOfWord (tableWord nbits w))
        mode := 0#2
        halted := false }

/-! ### The instructions (41_custom_instructions.md); that the pc moves by 4 is decision D19 (log 23) -/

/-- `simprint` with a level above 4, compared unsigned on all 32 bits: one error record and no bus read. -/
def Obligations.SimprintRejectsLevelsAboveFour : Prop :=
  ∀ (rd rs1 rs2 : RegIdx) (s : State), 4 < (readReg rd s).toNat →
    exec (.simprint rd rs1 rs2) s = .next { s with
      out := { s.out with log := s.out.log ++ [.err (.badLogLevel (readReg rd s))] }
      pc := s.pc + 4#32
      instret := s.instret + Config.retireAdvance s.tick
      tick := s.tick + 1 }

/-- `simprint` of a string that lies in the two memories: the text is the masked bytes up to the first masked zero, at most 255;
exactly the terminator more is read, at most 255 in all; one record; nothing else changes. -/
def Obligations.SimprintPrintsTheStringInMemory : Prop :=
  ∀ (rd rs1 rs2 : RegIdx) (s : State) (sev : Severity),
    readReg rd s = levelOfSeverity sev →
    (∀ a ∈ addressesFrom (readReg rs1 s) (readsFor (textAt s (readReg rs1 s))), mapsToMemory s.plat a) →
    exec (.simprint rd rs1 rs2) s = .next { s with
      out := { s.out with
        log := s.out.log ++ [.print sev (textAt s (readReg rs1 s)) (readReg rs2 s)]
        busReads := s.out.busReads ++ addressesFrom (readReg rs1 s) (readsFor (textAt s (readReg rs1 s))) }
      pc := s.pc + 4#32
      instret := s.instret + Config.retireAdvance s.tick
      tick := s.tick + 1 }

/-- `simprint` wherever the bus answers, other windows of the platform among them: some text of at most 255 nonzero characters is
printed in one record, with as many reads as it and its terminator take; nothing else changes. The number of reads rests on D14 (a
masked zero ends the text) and the wrapping addresses on D15 (both log 21). -/
def Obligations.SimprintCompletesWhereTheBusAnswers : Prop :=
  ∀ (rd rs1 rs2 : RegIdx) (s : State), (readReg rd s).toNat ≤ 4 →
    (∀ a ∈ addressesFrom (readReg rs1 s) 255, answered s.plat a) →
    ∃ sev text t, exec (.simprint rd rs1 rs2) s = .next t ∧
      readReg rd s = levelOfSeverity sev ∧ text.length ≤ 255 ∧ (∀ c ∈ text, c ≠ 0#7) ∧
      t = { s with
        out := { s.out with
          log := s.out.log ++ [.print sev text (readReg rs2 s)]
          busReads := s.out.busReads ++ addressesFrom (readReg rs1 s) (min 255 (text.length + 1)) }
        pc := s.pc + 4#32
        instret := t.instret
        tick := t.tick }

/-- `simprint` that reaches, after only nonzero characters in the two memories, an address nothing maps or the block's own register
file: refused by name (R212, D32). That the text goes on up to there is D14, that the addresses wrap D15 (log 21). -/
def Obligations.SimprintStopsWhereTheBusHasNoAnswer : Prop :=
  ∀ (rd rs1 rs2 : RegIdx) (s : State) (k : Nat), (readReg rd s).toNat ≤ 4 → k < 255 →
    (∀ a ∈ addressesFrom (readReg rs1 s) k, mapsToMemory s.plat a ∧ maskChar (byteAt s a) ≠ 0#7) →
    (busTarget s.plat (readReg rs1 s + BitVec.ofNat 32 k) = .nothing →
      exec (.simprint rd rs1 rs2) s = .refused (.busUnanswered (readReg rs1 s + BitVec.ofNat 32 k))) ∧
    (busTarget s.plat (readReg rs1 s + BitVec.ofNat 32 k) = .registerFile →
      exec (.simprint rd rs1 rs2) s = .refused (.busReadOfRegisterFile (readReg rs1 s + BitVec.ofNat 32 k)))

/-- `xcount`, both selectors: the destination takes the low 32 bits of the counter of COUNTER_WIDTH bits; a write to x[0] is
discarded (D20, log 11). -/
def Obligations.XcountReadsTheCounter : Prop :=
  ∀ (rd sel : RegIdx) (s : State), sel.toNat ≤ 1 →
    exec (.xcount rd sel) s = .next { s with
      x := if rd = 0#5 then s.x
        else s.x.set rd.toNat (BitVec.ofNat 32 (s.instret % 2 ^ s.plat.counterWidth)) rd.isLt
      pc := s.pc + 4#32
      instret := s.instret + Config.retireAdvance s.tick
      tick := s.tick + 1 } ∧
    (32 ≤ s.plat.counterWidth →
      BitVec.ofNat 32 (s.instret % 2 ^ s.plat.counterWidth) = BitVec.ofNat 32 s.instret)

/-- `xcount` with a selector from 2 to 31: one error record, no register write. -/
def Obligations.XcountRejectsOtherSelectors : Prop :=
  ∀ (rd sel : RegIdx) (s : State), 2 ≤ sel.toNat →
    exec (.xcountBadsel rd sel) s = .next { s with
      out := { s.out with log := s.out.log ++ [.err (.badCountSelector sel)] }
      pc := s.pc + 4#32
      instret := s.instret + Config.retireAdvance s.tick
      tick := s.tick + 1 }

/-- `hostreq` in every mode: mode Freeze, halted, HostReq pending, the record of R166; the pc at the next instruction. -/
def Obligations.HostreqFreezesAndRaises : Prop :=
  ∀ s : State,
    exec .hostreq s = .next { s with
      mode := 1#2
      halted := true
      pending := s.pending ||| 0b0001#4
      out := { s.out with
        log := s.out.log ++ [if s.mode = 0#2 then .handshake .hostReq else .err (.handshakeNotInRun .hostReq)] }
      pc := s.pc + 4#32
      instret := s.instret + Config.retireAdvance s.tick
      tick := s.tick + 1 }

/-- `finish` in every mode: mode Freeze+SoftwareReset, halted, Finish pending, the record of R166; no core reset. -/
def Obligations.FinishHoldsInResetAndRaises : Prop :=
  ∀ s : State,
    exec .finish s = .next { s with
      mode := 3#2
      halted := true
      pending := s.pending ||| 0b0010#4
      out := { s.out with
        log := s.out.log ++ [if s.mode = 0#2 then .handshake .finish else .err (.handshakeNotInRun .finish)] }
      pc := s.pc + 4#32
      instret := s.instret + Config.retireAdvance s.tick
      tick := s.tick + 1 }

/-- An unrecognised funct3: exactly one error record; registers, memories, mode, pending and halted stay. -/
def Obligations.UnrecognisedOnlyLogs : Prop :=
  ∀ (f : BitVec 3) (s : State),
    exec (.unrecognised f) s = .next { s with
      out := { s.out with log := s.out.log ++ [.err (.unknownFunct3 f)] }
      pc := s.pc + 4#32
      instret := s.instret + Config.retireAdvance s.tick
      tick := s.tick + 1 }

/-- The frame of all six rows (R136): no byte of memory changes; no general register but the destination of the valid `xcount`;
mode, pending and halted only by `hostreq` and `finish`; bus reads only by `simprint`; no other block state at all; and no row but
`simprint` reads a general register: with other register contents the outcome is the same but for the registers. (pc + 4: D19, log 23.) -/
def Obligations.InstructionFrame : Prop :=
  ∀ (i : Instr) (s t : State), i.wellFormed = true → exec i s = .next t →
    (∀ m a, (memOf m t).read a = (memOf m s).read a) ∧
    (∀ r, (∀ rd sel, i = .xcount rd sel → r ≠ rd) → readReg r t = readReg r s) ∧
    (i ≠ .hostreq → i ≠ .finish → t.mode = s.mode ∧ t.pending = s.pending ∧ t.halted = s.halted) ∧
    ((∀ rd rs1 rs2, i ≠ .simprint rd rs1 rs2) → t.out.busReads = s.out.busReads) ∧
    t = { s with
      x := t.x
      pc := s.pc + 4#32
      instret := t.instret
      tick := t.tick
      mode := t.mode
      pending := t.pending
      halted := t.halted
      out := { s.out with log := t.out.log, busReads := t.out.busReads } } ∧
    s.instret ≤ t.instret ∧
    ((∀ rd rs1 rs2, i ≠ .simprint rd rs1 rs2) →
      ∀ y : Vector Word 32, ∃ z, exec i { s with x := y } = .next { t with x := z })

/-- The only instruction that can stop is `simprint`, and only on a byte read to which the bus gives no answer (R10); that
the addresses wrap is D15 (log 21). -/
def Obligations.OnlyABusReadStopsAnInstruction : Prop :=
  ∀ (i : Instr) (s : State) (r : Refusal), exec i s = .refused r →
    ∃ rd rs1 rs2 k, i = .simprint rd rs1 rs2 ∧ k < 255 ∧
      ((r = .busUnanswered (readReg rs1 s + BitVec.ofNat 32 k) ∧
          busTarget s.plat (readReg rs1 s + BitVec.ofNat 32 k) = .nothing) ∨
        (r = .busReadOfRegisterFile (readReg rs1 s + BitVec.ofNat 32 k) ∧
          busTarget s.plat (readReg rs1 s + BitVec.ofNat 32 k) = .registerFile))

/-- Register index 0 (D20, log 11): it reads 0 whatever is written, and a write to it changes nothing; every other register reads
what was last written and is not touched by a write to another. -/
def Obligations.RegisterZeroIsHardwired : Prop :=
  ∀ (s : State) (v : Word),
    readReg 0#5 s = 0#32 ∧ writeReg 0#5 v s = s ∧
    (∀ i : RegIdx, i ≠ 0#5 → readReg i (writeReg i v s) = v) ∧
    (∀ i j : RegIdx, j ≠ i → readReg j (writeReg i v s) = readReg j s)

/-! ### The interrupt aggregator (42_interrupt_aggregator.md) -/

/-- R155: every line is a level, the pending and enable bits of its own source and nothing else. Which bit is which source, and
so the example at the end, is decision D1 (log 12). -/
def Obligations.LinesFollowEnabledAndPending : Prop :=
  (∀ (s : State) (k : Source),
    line k s = (((s.enabled &&& s.pending) &&& (1#4 <<< sourceBit k)) != 0#4) ∧
    line k s = (s.enabled.getLsbD (sourceBit k) && s.pending.getLsbD (sourceBit k))) ∧
  (∀ s : State, s.enabled = 0b0101#4 → s.pending = 0b0110#4 →
    line .hostReq s = false ∧ line .finish s = false ∧ line .instructionFault s = true ∧ line .dataFault s = false)

/-- R154: raising a source sets its pending bit, already set or not, and changes nothing else; an enabled source's line
is then asserted. The rule's example: raise, then enable, asserts the line; then clearing the pending bit deasserts it. -/
def Obligations.RaiseSetsOnePendingBit : Prop :=
  ∀ (s : State) (k : Source),
    (∀ j : Source, (raiseIrq k s).pending.getLsbD (sourceBit j) =
      (decide (j = k) || s.pending.getLsbD (sourceBit j))) ∧
    raiseIrq k s = { s with pending := (raiseIrq k s).pending } ∧
    (s.pending.getLsbD (sourceBit k) = true → raiseIrq k s = s) ∧
    (s.enabled.getLsbD (sourceBit k) = true → line k (raiseIrq k s) = true) ∧
    line k (writeEnable (sourceMask k) (raiseIrq k s)) = true ∧
    line k (writePendingClear (sourceMask k) (writeEnable (sourceMask k) (raiseIrq k s))) = false

/-- R151, R201: a word read of IntrState returns the pending bits zero-extended; a write clears exactly the pending bits written as 1
and changes nothing else, higher bits of the word being ignored. -/
def Obligations.IntrStateReadsAndClears : Prop :=
  ∀ (s : State) (v : Word) (rest : List Turn),
    (s.schedule = .env (.regRead 0x00#10 .word) :: rest →
      step s = .next { s with
        schedule := rest
        out := { s.out with replies := s.out.replies ++ [.register 0x00#10 (s.pending.setWidth 32)] } }) ∧
    (s.schedule = .env (.regWrite 0x00#10 .word v) :: rest →
      ∃ t, step s = .next t ∧ t = { s with schedule := rest, pending := t.pending } ∧
        (∀ k, k < 4 → t.pending.getLsbD k = (s.pending.getLsbD k && !v.getLsbD k)) ∧
        (∀ k : Source, v.getLsbD (sourceBit k) = true → line k t = false))

/-- R152, R202: a word write of IntrEnable replaces the enable set by the low four bits and changes nothing else, so the lines follow at
once and all drop when it is 0; a read returns the set zero-extended, the low four bits of what was written. -/
def Obligations.IntrEnableReplacesAndReadsBack : Prop :=
  ∀ (s : State) (v : Word) (rest : List Turn),
    (s.schedule = .env (.regWrite 0x04#10 .word v) :: rest →
      ∃ t, step s = .next t ∧ t = { s with schedule := rest, enabled := t.enabled } ∧
        (∀ k, k < 4 → t.enabled.getLsbD k = v.getLsbD k) ∧
        (∀ k : Source, line k t = (v.getLsbD (sourceBit k) && s.pending.getLsbD (sourceBit k))) ∧
        (v &&& 0xF#32 = 0#32 → ∀ k : Source, line k t = false) ∧
        offsetValue 0x04#10 t = v &&& 0xF#32) ∧
    (s.schedule = .env (.regRead 0x04#10 .word) :: rest →
      step s = .next { s with
        schedule := rest
        out := { s.out with replies := s.out.replies ++ [.register 0x04#10 (s.enabled.setWidth 32)] } })

/-- R153, R203: a word write of IntrTest sets exactly the pending bits written as 1; no handshake runs, so mode and halted stay; a read
of it returns 0 (D38, log 30). -/
def Obligations.IntrTestInjectsPendingBits : Prop :=
  ∀ (s : State) (v : Word) (rest : List Turn),
    (s.schedule = .env (.regWrite 0x08#10 .word v) :: rest →
      ∃ t, step s = .next t ∧ t = { s with schedule := rest, pending := t.pending } ∧
        (∀ k, k < 4 → t.pending.getLsbD k = (s.pending.getLsbD k || v.getLsbD k))) ∧
    offsetValue 0x08#10 s = 0#32

/-! ### The mode controller (43_mode_controller.md) -/

/-- R161 and Table R167, from any state: what a Control write does to mode, payload, halted flag, pc, registers and counter, which
signals go to the core and in which order, and that nothing else changes. The field split is D2 (log 13), that a core reset keeps
`halted` and the memories D21 (log 4). -/
def Obligations.ControlWriteTransition : Prop :=
  ∀ (s : State) (v : Word) (rest : List Turn),
    s.schedule = .env (.regWrite 0x0C#10 .word v) :: rest →
    ∃ t, step s = .next t ∧
      t.mode = v.extractLsb' 0 2 ∧ t.pcStart = v.extractLsb' 2 17 ∧
      t.halted =
        (if s.mode = 0#2 ∧ v.extractLsb' 0 2 ≠ 0#2 then true
        else if s.mode ≠ 0#2 ∧ v.extractLsb' 0 2 = 0#2 then false
        else s.halted) ∧
      (if s.mode.getLsbD 1 = true ∧ v.getLsbD 1 = false then
        t.pc = s.plat.imemBase + ((v.extractLsb' 2 17).setWidth 32 <<< s.plat.pcStartShift.amount)
      else t.pc = s.pc ∧ t.x = s.x ∧ t.instret = s.instret ∧ t.tick = s.tick) ∧
      t.out.coreSignals = s.out.coreSignals ++
        ((if s.mode.getLsbD 1 = true ∧ v.getLsbD 1 = false then [.reset] else []) ++
          (if s.mode ≠ 0#2 ∧ v.extractLsb' 0 2 = 0#2 then [.resume] else [])) ∧
      t = { s with
        schedule := rest
        mode := t.mode
        pcStart := t.pcStart
        halted := t.halted
        pc := t.pc
        x := t.x
        instret := t.instret
        tick := t.tick
        out := { s.out with coreSignals := t.out.coreSignals } }

/-- R162: the start PC as a number, for both values of PC_START_SHIFT (D3, log 14). -/
def Obligations.StartPcIsAWrappingSum : Prop :=
  ∀ (p : Config.Platform) (pay : BitVec 17),
    (p.pcStartShift = .zero → (startPC p pay).toNat = (p.imemBase.toNat + pay.toNat) % 2 ^ 32) ∧
    (p.pcStartShift = .two → (startPC p pay).toNat = (p.imemBase.toNat + 4 * pay.toNat) % 2 ^ 32)

/-- R164: the completion handshake sets mode Freeze+SoftwareReset, halts the core and raises Finish, with the record of the
precondition check; it writes nothing else, and in particular does not reset the core. -/
def Obligations.CompletionNotifyHandshake : Prop :=
  ∀ s : State,
    completionNotify s = { s with
      mode := 3#2
      halted := true
      pending := s.pending ||| sourceMask .finish
      out := { s.out with
        log := s.out.log ++ [if s.mode = 0#2 then .handshake .finish else .err (.handshakeNotInRun .finish)] } }

/-- R165: a fault report sets mode Freeze+SoftwareReset, halts the core and raises its own source, from any mode, where the platform wires
the input; elsewhere nothing happens (D24, log 26). -/
def Obligations.FaultReportHaltsAndRaises : Prop :=
  ∀ (s : State) (kind : FaultKind) (rest : List Turn),
    s.schedule = .env (.faultReport kind) :: rest →
    (s.plat.faultInputWired = true →
      step s = .next { s with
        schedule := rest
        mode := 3#2
        halted := true
        pending := s.pending ||| (if kind = .instructionFetch then 0b0100#4 else 0b1000#4)
        out := { s.out with
          log := s.out.log ++
            [if s.mode = 0#2 then .handshake (faultSource kind) else .err (.handshakeNotInRun (faultSource kind))] } }) ∧
    (s.plat.faultInputWired = false → step s = .next { s with schedule := rest })

/-- R237: after `hostreq` a Control write of Run resumes at the next instruction with every register and the counter as they were and no
core reset, whatever the payload; after `finish` it resets the core once, sets the pc to the start PC of its own payload and resumes, in
this order. Both leave the pending bit and the memories. (pc + 4: D19, log 23; the Control fields: D2, log 13; bit positions: D1, log
12; the memories across a core reset: D21, log 4.) -/
def Obligations.ControlWriteReturnsFromAHandshake : Prop :=
  ∀ (s t u : State) (v : Word) (rest : List Turn),
    t.schedule = .env (.regWrite 0x0C#10 .word v) :: rest → v.extractLsb' 0 2 = 0#2 → step t = .next u →
    (exec .hostreq s = .next t →
      u.mode = 0#2 ∧ u.halted = false ∧ u.pc = s.pc + 4#32 ∧ u.x = s.x ∧ u.instret = t.instret ∧
        u.pending.getLsbD 0 = true ∧ u.imem = s.imem ∧ u.dmem = s.dmem ∧
        u.out.coreSignals = s.out.coreSignals ++ [.resume]) ∧
    (exec .finish s = .next t →
      u.mode = 0#2 ∧ u.halted = false ∧ u.pc = startPC s.plat (v.extractLsb' 2 17) ∧
        u.pending.getLsbD 1 = true ∧ u.imem = s.imem ∧ u.dmem = s.dmem ∧
        u.out.coreSignals = s.out.coreSignals ++ [.reset, .resume])

/-- R262: from the mode after reset, one Control write of Run starts the core at the start PC of its payload; the two-write release
(mode 1 with the payload, then mode 0) ends in the same running state, the second payload being latched and unused. Two clauses are
the model's choice: that a core reset keeps the memories (log 4), and that the registers and the counter, which R32, R35 and D21
leave unspecified after it, agree in the two runs: both resets draw their free values at the same tick (log 4, log 38). -/
def Obligations.BootByOneWriteOrTwo : Prop :=
  ∀ (s : State) (pay pay' : BitVec 17) (v v1 v0 : Word),
    s.mode = 3#2 → s.halted = true → s.schedule = [] →
    v.extractLsb' 0 2 = 0#2 → v.extractLsb' 2 17 = pay →
    v1.extractLsb' 0 2 = 1#2 → v1.extractLsb' 2 17 = pay →
    v0.extractLsb' 0 2 = 0#2 → v0.extractLsb' 2 17 = pay' →
    ∃ t u,
      step { s with schedule := [.env (.regWrite 0x0C#10 .word v)] } = .next t ∧
      Sys2Proof.core.run 2
        { s with schedule := [.env (.regWrite 0x0C#10 .word v1), .env (.regWrite 0x0C#10 .word v0)] } = .next u ∧
      t.mode = 0#2 ∧ t.halted = false ∧ t.pc = startPC s.plat pay ∧ t.imem = s.imem ∧ t.dmem = s.dmem ∧
      u = { t with pcStart := pay' }

/-! ### The scrub engine (44_memory_scrub.md) -/

/-- R180, R208: a word write of InitEnd latches the address; with Valid set it queues, last, a request that copies the latched start and
selector and the address of this write, and shows Pending; memory is not touched. The queue is D8 (log 16), the selector D5 (log 15). -/
def Obligations.InitEndWriteAcceptsARequest : Prop :=
  ∀ (s : State) (v : Word) (rest : List Turn),
    s.schedule = .env (.regWrite 0x1C#10 .word v) :: rest →
    (v.getLsbD 22 = true →
      step s = .next { s with
        schedule := rest
        initEnd := v.extractLsb' 0 22
        initStatus := { pending := true, done := false }
        scrubQueue := s.scrubQueue ++
          [{ target := if s.initSel = 0#1 then .imem else .dmem
             startAddress := s.initStart
             endAddress := v.extractLsb' 0 22 }] }) ∧
    (v.getLsbD 22 = false → step s = .next { s with schedule := rest, initEnd := v.extractLsb' 0 22 })

/-- R183: the aligned range starts at the last page boundary not above the start, ends at the first page boundary not below the end, and is
the masked formula of the rule; pages are 4 and 64 bytes. -/
def Obligations.ScrubRangeIsPageAligned : Prop :=
  (∀ r : ScrubRequest,
    alignedStart r % pageSize r.target = 0 ∧ alignedStart r ≤ r.startAddress.toNat ∧
    r.startAddress.toNat < alignedStart r + pageSize r.target ∧
    alignedEnd r % pageSize r.target = 0 ∧ r.endAddress.toNat ≤ alignedEnd r ∧
    alignedEnd r < r.endAddress.toNat + pageSize r.target ∧ alignedEnd r ≤ 0x400000) ∧
  pageSize .imem = 4 ∧ pageSize .dmem = 64

/-- R182, R183: at a synchronisation point the oldest request, its range inside the memory, leaves the queue; exactly the bytes from
alignedStart to alignedEnd - 1 of its target become the erase byte; the status shows Done; every other byte of both memories and
every other field stays. -/
def Obligations.CompletionErasesExactlyTheRange : Prop :=
  ∀ (s : State) (r : ScrubRequest) (queue : List ScrubRequest) (rest : List Turn),
    s.schedule = .env .syncPoint :: rest → s.scrubQueue = r :: queue → s.imem.wf → s.dmem.wf →
    alignedEnd r ≤ alignedStart r ∨ alignedEnd r ≤ memSize s.plat r.target →
    ∃ t, step s = .next t ∧
      (∀ a, (memOf r.target t).read a =
        if alignedStart r ≤ a ∧ a < alignedEnd r then s.plat.eraseByte else (memOf r.target s).read a) ∧
      (∀ m, m ≠ r.target → ∀ a, (memOf m t).read a = (memOf m s).read a) ∧
      t = { s with
        schedule := rest
        scrubQueue := queue
        initStatus := { pending := false, done := true }
        imem := t.imem
        dmem := t.dmem }

/-- R187 (D10, log 17; the range is in byte offsets, D6, log 15): a completion is refused exactly when some page of the aligned range
passes the extent of the target. -/
def Obligations.ScrubBeyondTheExtentIsRefused : Prop :=
  ∀ (s : State) (r : ScrubRequest) (queue : List ScrubRequest) (rest : List Turn),
    s.schedule = .env .syncPoint :: rest → s.scrubQueue = r :: queue →
    ((∃ n, alignedStart r + n * pageSize r.target < alignedEnd r ∧
        memSize s.plat r.target < alignedStart r + (n + 1) * pageSize r.target) ↔
      step s = .refused (.scrubBeyondExtent r))

/-- R181 (D9, log 7): with the schedule exhausted every queued request is completed, one a step, oldest first, before anything else moves,
as long as each lies inside its memory: the bytes of every queued range then read as the erase byte, every other byte of both
memories reads as before, and nothing but the queue, the status and the memories changes. -/
def Obligations.QueuedScrubsComplete : Prop :=
  ∀ s : State, s.schedule = [] → s.scrubQueue ≠ [] → (∀ r ∈ s.scrubQueue, beyondExtent s.plat r = false) →
    ∃ t, Sys2Proof.core.run s.scrubQueue.length s = .next t ∧
      t = { s with
        scrubQueue := []
        initStatus := { pending := false, done := true }
        imem := t.imem
        dmem := t.dmem } ∧
      (s.imem.wf → s.dmem.wf → ∀ m a,
        ((∃ r ∈ s.scrubQueue, r.target = m ∧ alignedStart r ≤ a ∧ a < alignedEnd r) →
          (memOf m t).read a = s.plat.eraseByte) ∧
        ((∀ r ∈ s.scrubQueue, r.target = m → ¬ (alignedStart r ≤ a ∧ a < alignedEnd r)) →
          (memOf m t).read a = (memOf m s).read a))

/-! ### The register file (45_register_file.md) -/

/-- R65, R210, R211: a word read of any aligned offset changes nothing but the answer it gives; the answer as a number, register by
register; offsets with no register answer 0 (D12, log 19). The live mode in Control is D4 and its split into mode and payload D2 (log
13); the selector at bit 22 of InitStart is D5 (log 15); unnamed bits are D33, what IntrTest and Valid read D38 (log 30). -/
def Obligations.RegisterReadsAnswerTheirFields : Prop :=
  (∀ (s : State) (off : BitVec 10) (rest : List Turn),
    s.schedule = .env (.regRead off .word) :: rest → off.toNat % 4 = 0 →
    step s = .next { s with
      schedule := rest
      out := { s.out with replies := s.out.replies ++ [.register off (offsetValue off s)] } }) ∧
  (∀ s : State,
    (offsetValue 0x00#10 s).toNat = s.pending.toNat ∧
    (offsetValue 0x04#10 s).toNat = s.enabled.toNat ∧
    (offsetValue 0x08#10 s).toNat = 0 ∧
    (offsetValue 0x0C#10 s).toNat = 4 * s.pcStart.toNat + s.mode.toNat ∧
    (offsetValue 0x10#10 s).toNat = s.memBankCtrl.toNat ∧
    (offsetValue 0x14#10 s).toNat = s.errorStatus.toNat ∧
    (offsetValue 0x18#10 s).toNat = 2 ^ 22 * s.initSel.toNat + s.initStart.toNat ∧
    (offsetValue 0x1C#10 s).toNat = s.initEnd.toNat ∧
    (offsetValue 0x20#10 s).toNat = 2 * s.initStatus.done.toNat + s.initStatus.pending.toNat ∧
    (∀ off : BitVec 10, 0x24 ≤ off.toNat → (offsetValue off s).toNat = 0))

/-- The storing registers at the bus (R202, R204 to R208, D33, D37, log 30): a word write of MemoryBankControl, ErrorStatus or
InitStart stores its named bits and changes nothing else; one of InitStatus or of an offset with no register changes nothing (D38;
D12, log 19); and after a write of any storing register, whatever the step did besides, the register reads the named bits of the
word. The last clauses say the same of `offsetStore`. -/
def Obligations.WrittenRegistersReadBack : Prop :=
  (∀ (s : State) (v : Word) (rest : List Turn),
    (s.schedule = .env (.regWrite 0x10#10 .word v) :: rest →
      step s = .next { s with schedule := rest, memBankCtrl := v.extractLsb' 0 12 }) ∧
    (s.schedule = .env (.regWrite 0x14#10 .word v) :: rest →
      step s = .next { s with schedule := rest, errorStatus := v.extractLsb' 0 14 }) ∧
    (s.schedule = .env (.regWrite 0x18#10 .word v) :: rest →
      step s = .next { s with schedule := rest, initStart := v.extractLsb' 0 22, initSel := v.extractLsb' 22 1 }) ∧
    (∀ off : BitVec 10, 0x20 ≤ off.toNat → off.toNat % 4 = 0 →
      s.schedule = .env (.regWrite off .word v) :: rest → step s = .next { s with schedule := rest })) ∧
  (∀ (s : State) (v : Word) (rest : List Turn) (off : BitVec 10) (mask : Word),
    (off, mask) ∈ [(0x04#10, 0x0000000F#32), (0x0C#10, 0x0007FFFF#32), (0x10#10, 0x00000FFF#32),
      (0x14#10, 0x00003FFF#32), (0x18#10, 0x007FFFFF#32), (0x1C#10, 0x003FFFFF#32)] →
    s.schedule = .env (.regWrite off .word v) :: rest →
    ∃ t, step s = .next t ∧ offsetValue off t = v &&& mask) ∧
  (∀ (s : State) (v : Word),
    offsetValue 0x04#10 (offsetStore 0x04#10 v s) = v &&& 0x0000000F#32 ∧
    offsetValue 0x0C#10 (offsetStore 0x0C#10 v s) = v &&& 0x0007FFFF#32 ∧
    offsetValue 0x10#10 (offsetStore 0x10#10 v s) = v &&& 0x00000FFF#32 ∧
    offsetValue 0x14#10 (offsetStore 0x14#10 v s) = v &&& 0x00003FFF#32 ∧
    offsetValue 0x18#10 (offsetStore 0x18#10 v s) = v &&& 0x007FFFFF#32 ∧
    offsetValue 0x1C#10 (offsetStore 0x1C#10 v s) = v &&& 0x003FFFFF#32 ∧
    offsetStore 0x20#10 v s = s ∧
    (∀ off : BitVec 10, 0x24 ≤ off.toNat → offsetStore off v s = s))

/-- R65: writing the same word twice to any offset is writing it once, InitEnd with Valid set apart; writing InitEnd twice with Valid set
is not: it queues two requests (D8, log 16). The same of two scheduled writes: the second changes nothing more. The offsets with
no register are among them by D12 (log 19), InitStatus by D38 (log 30). -/
def Obligations.RepeatedWritesAreIdempotent : Prop :=
  (∀ (s : State) (v : Word) (off : BitVec 10), (off = 0x1C#10 → v.getLsbD 22 = false) →
    offsetStore off v (offsetStore off v s) = offsetStore off v s) ∧
  (∀ (s : State) (v : Word) (off : BitVec 10), (off = 0x1C#10 → v.getLsbD 22 = false) → off.toNat % 4 = 0 →
    Sys2Proof.core.run 2 { s with schedule := [.env (.regWrite off .word v), .env (.regWrite off .word v)] } =
      step { s with schedule := [.env (.regWrite off .word v)] }) ∧
  (∀ (s : State) (v : Word), v.getLsbD 22 = true →
    (offsetStore 0x1C#10 v (offsetStore 0x1C#10 v s)).scrubQueue.length = s.scrubQueue.length + 2)

/-- R200, R212: a write turn of a word at an aligned offset answers the state that the offset's register stores into, with the turn
off the schedule, and a read turn the state with the offset's value as its reply; any other access is refused (D13, log 20). That the
offsets of 0x24 and above complete too is decision D12 (log 19). -/
def Obligations.OnlyAlignedWordsAreAccessed : Prop :=
  ∀ (s : State) (off : BitVec 10) (width : AccessWidth) (v : Word) (rest : List Turn),
    (s.schedule = .env (.regWrite off width v) :: rest →
      (width = .word ∧ off.toNat % 4 = 0 → step s = .next (offsetStore off v { s with schedule := rest })) ∧
      (¬ (width = .word ∧ off.toNat % 4 = 0) → step s = .refused (.accessNotWord off))) ∧
    (s.schedule = .env (.regRead off width) :: rest →
      (width = .word ∧ off.toNat % 4 = 0 →
        step s = .next { s with
          schedule := rest
          out := { s.out with replies := s.out.replies ++ [.register off (offsetValue off s)] } }) ∧
      (¬ (width = .word ∧ off.toNat % 4 = 0) → step s = .refused (.accessNotWord off)))

/-! ### The counter CSRs (60_exceptions.md) -/

/-- R240: on a running core a read of either counter CSR answers the low 32 bits of the counter, the value `xcount` writes; a write changes
nothing; only the counter may move on with the access (log 6). That the pc and the registers stay as they are across the core's own
CSR instruction is not R240's: it is the model's choice, which leaves that instruction out (log 32). -/
def Obligations.CounterCsrsAnswerTheCounter : Prop :=
  ∀ (s : State) (csr : BitVec 12) (v : Word) (rest : List Turn),
    s.halted = false → csr = s.plat.csrCountA ∨ csr = s.plat.csrCountB →
    (s.schedule = .env (.csrRead csr) :: rest →
      step s = .next { s with
        schedule := rest
        out := { s.out with
          replies := s.out.replies ++ [.counter csr (BitVec.ofNat 32 (s.instret % 2 ^ s.plat.counterWidth))] }
        instret := s.instret + Config.retireAdvance s.tick
        tick := s.tick + 1 }) ∧
    (s.schedule = .env (.csrWrite csr v) :: rest →
      step s = .next { s with
        schedule := rest
        instret := s.instret + Config.retireAdvance s.tick
        tick := s.tick + 1 })

/-- The law of R35: a step never lowers the counter, unless it resets the block or the core (which bit of a Control word is
SoftwareReset follows D2, log 13). -/
def Obligations.CounterFallsOnlyAtAReset : Prop :=
  ∀ s t : State, step s = .next t → nextTurn s ≠ some (.env .blockReset) →
    (∀ turn, nextTurn s = some turn → ¬ resetsCore s turn) → s.instret ≤ t.instret

/-! ### Reset and the loading of memory (70_reset_and_hazards.md) -/

/-- Table R39: mode 3, Control reads 3, the core halted; the zeros of the enable and pending sets, of the stored registers and of the status,
and the empty queue are decision D11 (log 18); all lines are deasserted. -/
def Obligations.ResetStateOfTheBlock : Prop :=
  State.reset.mode = 3#2 ∧ offsetValue 0x0C#10 State.reset = 0x00000003#32 ∧ State.reset.halted = true ∧
  (∀ k : Source, line k State.reset = false) ∧
  (∀ off ∈ [0x00#10, 0x04#10, 0x08#10, 0x10#10, 0x14#10, 0x18#10, 0x1C#10, 0x20#10], offsetValue off State.reset = 0#32) ∧
  State.reset.scrubQueue = [] ∧ State.reset.out.log = []

/-- R260 (D36, log 5): the platform's reset puts every block-owned field to its reset value from any state, leaves the core halted and the
parameters alone, empties the outputs, and leaves both memories in canonical form inside their extents. -/
def Obligations.BlockResetRestoresBlockState : Prop :=
  ∀ (s : State) (rest : List Turn), s.schedule = .env .blockReset :: rest →
    ∃ t, step s = .next t ∧ memoriesSound t ∧
      t = { State.reset with
        plat := s.plat
        schedule := rest
        x := t.x
        pc := t.pc
        instret := t.instret
        imem := t.imem
        dmem := t.dmem
        tick := t.tick }

/-! ### Whole-machine rules -/

/-- I-mode of R40, kept by every step from every state that has it; likewise the consistent states of Table R167, in which the core
is halted exactly when the mode is not Run. -/
def Obligations.StepKeepsModeInvariant : Prop :=
  ∀ s t : State, step s = .next t →
    (modeHalts s → modeHalts t) ∧ (modeConsistent s → modeConsistent t)

/-- I-status of R40 and the life cycle of R184, kept by every step from every state that has them. -/
def Obligations.StepKeepsStatusInvariant : Prop :=
  ∀ s t : State, step s = .next t →
    (statusExclusive s → statusExclusive t) ∧ (statusMatchesQueue s → statusMatchesQueue t)

/-- Every step keeps both memories in canonical form and inside their extents, and writes no parameter (R37, R41). -/
def Obligations.StepKeepsMemoriesSound : Prop :=
  ∀ s t : State, step s = .next t → t.plat = s.plat ∧ (memoriesSound s → memoriesSound t)

/-- The reset state meets all the invariants, and its parameters what Table R5 asks of them. -/
def Obligations.ResetMeetsTheInvariants : Prop := Inv State.reset ∧ State.reset.plat.wellFormed = true

/-- R21: the mode changes only by a Control write, a wired fault report, a dispatched `hostreq` or `finish`, or the block's reset. -/
def Obligations.OnlyTheModeControllerChangesMode : Prop :=
  ∀ s t : State, step s = .next t → t.mode ≠ s.mode →
    ∃ turn, nextTurn s = some turn ∧
      (writesAt 0x0C#10 turn ∨
        (∃ kind, turn = .env (.faultReport kind) ∧ s.plat.faultInputWired = true) ∨
        turn = .env .blockReset ∨
        (turn = .core ∧ (fetch s = .ok .hostreq ∨ fetch s = .ok .finish)))

/-- R237, R244: a halted core is released only by a Control write of Run over a mode that is not Run; and while it is halted its registers,
pc and counter survive every step but a core reset at a Control write and the block's reset. The mode field of the Control word is D2
(log 13); that no outside agent changes `halted` is D29 (log 28). -/
def Obligations.HaltedCoreWaitsForTheHost : Prop :=
  ∀ s t : State, step s = .next t → s.halted = true →
    (t.halted = false →
      s.mode ≠ 0#2 ∧ ∃ v : Word, nextTurn s = some (.env (.regWrite 0x0C#10 .word v)) ∧ v.extractLsb' 0 2 = 0#2) ∧
    (nextTurn s ≠ some (.env .blockReset) → (∀ turn, nextTurn s = some turn → ¬ resetsCore s turn) →
      t.x = s.x ∧ t.pc = s.pc ∧ t.instret = s.instret)

/-- R233: a pending bit appears only by its own event or an IntrTest write, and disappears only by an IntrState write with that bit or the
block's reset; in particular a completed scrub raises nothing. Which bit of a word is which source is D1 (log 12). -/
def Obligations.PendingBitsHaveNoOtherCause : Prop :=
  ∀ (s t : State) (k : Source), step s = .next t →
    t.pending.getLsbD (sourceBit k) ≠ s.pending.getLsbD (sourceBit k) →
    ∃ turn, nextTurn s = some turn ∧
      (if t.pending.getLsbD (sourceBit k) = true then
        (∃ v : Word, turn = .env (.regWrite 0x08#10 .word v) ∧ v.getLsbD (sourceBit k) = true) ∨
        (turn = .core ∧ fetch s = .ok .hostreq ∧ k = .hostReq) ∨
        (turn = .core ∧ fetch s = .ok .finish ∧ k = .finish) ∨
        (turn = .env (.faultReport .instructionFetch) ∧ s.plat.faultInputWired = true ∧ k = .instructionFault) ∨
        (turn = .env (.faultReport .dataAccess) ∧ s.plat.faultInputWired = true ∧ k = .dataFault)
      else
        (∃ v : Word, turn = .env (.regWrite 0x00#10 .word v) ∧ v.getLsbD (sourceBit k) = true) ∨
        turn = .env .blockReset)

/-- Each stored register changes only by a bus write to its own offset, the block's reset apart (R22, R23, R26 to R29). That the
scrub target selector lies in InitStart, and so changes by a write to 0x18 alone, is decision D5 (log 15). -/
def Obligations.StoredRegistersHaveOneWriter : Prop :=
  ∀ s t : State, step s = .next t → nextTurn s ≠ some (.env .blockReset) →
    (t.pcStart ≠ s.pcStart → ∃ turn, nextTurn s = some turn ∧ writesAt 0x0C#10 turn) ∧
    (t.enabled ≠ s.enabled → ∃ turn, nextTurn s = some turn ∧ writesAt 0x04#10 turn) ∧
    (t.memBankCtrl ≠ s.memBankCtrl → ∃ turn, nextTurn s = some turn ∧ writesAt 0x10#10 turn) ∧
    (t.errorStatus ≠ s.errorStatus → ∃ turn, nextTurn s = some turn ∧ writesAt 0x14#10 turn) ∧
    (t.initStart ≠ s.initStart ∨ t.initSel ≠ s.initSel → ∃ turn, nextTurn s = some turn ∧ writesAt 0x18#10 turn) ∧
    (t.initEnd ≠ s.initEnd → ∃ turn, nextTurn s = some turn ∧ writesAt 0x1C#10 turn)

/-- R37: no byte of either memory changes but at a synchronisation point, by the platform's loading, or at the block's reset. What the
loading does (R262 step 1; the turn and its refusal are the model's, log 33): it stores its bytes at the consecutive offsets from
the named one, every other byte of both memories reads as before and nothing else changes; it is refused exactly when they pass
the extent. -/
def Obligations.MemoryHasNoOtherWriter : Prop :=
  (∀ (s t : State) (m : MemTarget) (a : Nat), step s = .next t →
    (memOf m t).read a ≠ (memOf m s).read a →
    ∃ turn, nextTurn s = some turn ∧
      (turn = .env .syncPoint ∨ (∃ off bs, turn = .env (.load m off bs)) ∨ turn = .env .blockReset)) ∧
  (∀ (s : State) (m : MemTarget) (off : Nat) (bs : List Byte) (rest : List Turn),
    s.schedule = .env (.load m off bs) :: rest →
    (memSize s.plat m < off + bs.length ↔ step s = .refused (.loadBeyondExtent m off)) ∧
    (off + bs.length ≤ memSize s.plat m →
      ∃ t, step s = .next t ∧
        t = { s with schedule := rest, imem := t.imem, dmem := t.dmem } ∧
        (∀ m', m' ≠ m → memOf m' t = memOf m' s) ∧
        ((memOf m s).wf →
          (∀ k (h : k < bs.length), (memOf m t).read (off + k) = bs[k]) ∧
          (∀ a, a < off ∨ off + bs.length ≤ a → (memOf m t).read a = (memOf m s).read a))))

/-- R67: the bank enables and the protection bits are never checked: with other values in them a step that neither accesses those two
registers nor resets the block does the same. -/
def Obligations.ProtectionBitsHaveNoEffect : Prop :=
  ∀ (s : State) (bank : BitVec 12) (err : BitVec 14),
    (∀ turn, nextTurn s = some turn → touchesProtection turn = false) →
    (∀ t, step s = .next t → step (withProtection bank err s) = .next (withProtection bank err t)) ∧
    (∀ r, step s = .refused r → step (withProtection bank err s) = .refused r)

end
end

