-- ==== Sys2Proof/Laws/Memory.lean ====
section
/-!
SUPPORT. The laws of the byte memory: reading after writing, the canonical form and the extent, and that a memory in canonical
form is decided by what it reads.
-/
namespace Sys2Proof.Machine

/-! ### Reading after one write -/

theorem Memory.read_consCell (a : Nat) (b : Byte) (m : Memory) (a' : Nat)
    (fresh : ∀ c ∈ m, c.1 ≠ a) :
    Memory.read (Memory.consCell a b m) a' = if a' = a then b else Memory.read m a' := by
  have blankAt : ∀ m : Memory, (∀ c ∈ m, c.1 ≠ a) → Memory.read m a = Memory.blank := by
    intro m
    induction m with
    | nil => intro _; rfl
    | cons c m ih =>
      intro h
      obtain ⟨k, v⟩ := c
      have hk : ¬ a = k := fun e => h (k, v) (by simp) e.symm
      simp only [Memory.read, hk, if_false]
      exact ih (fun d hd => h d (by simp [hd]))
  unfold Memory.consCell
  split
  · rename_i hb
    split
    · rename_i ha; subst ha; rw [blankAt m fresh, hb]
    · rfl
  · simp only [Memory.read]

theorem Memory.wf_cons {c : Host.Cell} {m : Memory} (h : Memory.wf (c :: m)) :
    Memory.wf m ∧ (∀ d ∈ m, c.1 < d.1) ∧ c.2 ≠ Memory.blank := by
  obtain ⟨h1, h2⟩ := h
  rw [List.pairwise_cons] at h1
  exact ⟨⟨h1.2, fun d hd => h2 d (by simp [hd])⟩, h1.1, h2 c (by simp)⟩

/-- A byte read after a write: the byte written at its offset, the old byte elsewhere. -/
theorem Memory.read_write (m : Memory) (a : Nat) (b : Byte) (a' : Nat) (h : m.wf) :
    (m.write a b).read a' = if a' = a then b else m.read a' := by
  induction m with
  | nil => exact Memory.read_consCell a b [] a' (by simp)
  | cons c m ih =>
    obtain ⟨k, v⟩ := c
    obtain ⟨hm, hk, -⟩ := Memory.wf_cons h
    simp only [Memory.write]
    split
    · rename_i hlt
      refine Memory.read_consCell a b _ a' ?_
      intro d hd
      rcases List.mem_cons.mp hd with rfl | hd
      · simp only; omega
      · have := hk d hd; simp only at this; omega
    · split
      · rename_i _ heq
        subst heq
        rw [Memory.read_consCell a b m a' (fun d hd => by have := hk d hd; simp only at this; omega)]
        split
        · rfl
        · rename_i hne; simp only [Memory.read, hne, if_false]
      · rename_i _ hne
        simp only [Memory.read]
        split
        · rename_i hak; subst hak
          rw [if_neg (fun e => hne e.symm)]
        · exact ih hm

/-! ### The canonical form and the extent -/

theorem Memory.mem_consCell {a : Nat} {b : Byte} {m : Memory} {c : Host.Cell} (h : c ∈ Memory.consCell a b m) :
    (c = (a, b) ∧ b ≠ Memory.blank) ∨ c ∈ m := by
  unfold Memory.consCell at h
  split at h
  · exact .inr h
  · rename_i hb
    rcases List.mem_cons.mp h with rfl | h
    · exact .inl ⟨rfl, hb⟩
    · exact .inr h

theorem Memory.mem_write {m : Memory} {a : Nat} {b : Byte} {c : Host.Cell} (h : c ∈ m.write a b) :
    (c = (a, b) ∧ b ≠ Memory.blank) ∨ c ∈ m := by
  induction m with
  | nil => exact Memory.mem_consCell h
  | cons d m ih =>
    obtain ⟨k, v⟩ := d
    simp only [Memory.write] at h
    split at h
    · exact Memory.mem_consCell h
    · split at h
      · rcases Memory.mem_consCell h with h | h
        · exact .inl h
        · exact .inr (by simp [h])
      · rcases List.mem_cons.mp h with rfl | h
        · exact .inr (by simp)
        · rcases ih h with h | h
          · exact .inl h
          · exact .inr (by simp [h])

theorem Memory.consCell_wf {a : Nat} {b : Byte} {m : Memory} (h : m.wf) (lo : ∀ d ∈ m, a < d.1) :
    (Memory.consCell a b m).wf := by
  unfold Memory.consCell
  split
  · exact h
  · rename_i hb
    refine ⟨List.pairwise_cons.mpr ⟨lo, h.1⟩, ?_⟩
    intro c hc
    rcases List.mem_cons.mp hc with rfl | hc
    · exact hb
    · exact h.2 c hc

/-- A write keeps the canonical form. -/
theorem Memory.write_wf {m : Memory} (h : m.wf) (a : Nat) (b : Byte) : (m.write a b).wf := by
  induction m with
  | nil => exact Memory.consCell_wf ⟨List.Pairwise.nil, by simp⟩ (by simp)
  | cons c m ih =>
    obtain ⟨k, v⟩ := c
    obtain ⟨hm, hk, hv⟩ := Memory.wf_cons h
    simp only [Memory.write]
    split
    · rename_i hlt
      refine Memory.consCell_wf h ?_
      intro d hd
      rcases List.mem_cons.mp hd with rfl | hd
      · exact hlt
      · have := hk d hd; simp only at this; omega
    · split
      · rename_i _ heq
        subst heq
        exact Memory.consCell_wf hm hk
      · rename_i hlt hne
        have hw := ih hm
        refine ⟨List.pairwise_cons.mpr ⟨?_, hw.1⟩, ?_⟩
        · intro d hd
          rcases Memory.mem_write hd with ⟨rfl, -⟩ | hd
          · simp only; omega
          · exact hk d hd
        · intro d hd
          rcases List.mem_cons.mp hd with rfl | hd
          · exact hv
          · exact hw.2 d hd

/-- A write inside the extent keeps every cell inside it. -/
theorem Memory.write_within {m : Memory} {size a : Nat} {b : Byte} (h : m.within size) (ha : a < size) :
    (m.write a b).within size := by
  intro c hc
  rcases Memory.mem_write hc with ⟨rfl, -⟩ | hc
  · exact ha
  · exact h c hc

/-! ### Filling and storing -/

theorem Memory.fill_wf (n : Nat) (b : Byte) : ∀ {m : Memory} {off : Nat}, m.wf → (m.fill off n b).wf := by
  induction n with
  | zero => intro m off h; exact h
  | succ n ih => intro m off h; exact ih (Memory.write_wf h off b)

theorem Memory.fill_within (n : Nat) (b : Byte) (size : Nat) :
    ∀ {m : Memory} {off : Nat}, m.within size → off + n ≤ size → (m.fill off n b).within size := by
  induction n with
  | zero => intro m off h _; exact h
  | succ n ih => intro m off h hs; exact ih (Memory.write_within h (by omega)) (by omega)

/-- A byte read after a fill: the fill byte inside the range, the old byte outside. -/
theorem Memory.read_fill (n : Nat) (b : Byte) :
    ∀ (m : Memory) (off a : Nat), m.wf →
      (m.fill off n b).read a = if off ≤ a ∧ a < off + n then b else m.read a := by
  induction n with
  | zero => intro m off a _; rw [if_neg (by omega)]; rfl
  | succ n ih =>
    intro m off a h
    simp only [Memory.fill]
    rw [ih _ _ _ (Memory.write_wf h off b), Memory.read_write _ _ _ _ h]
    by_cases h1 : off + 1 ≤ a ∧ a < off + 1 + n
    · rw [if_pos h1, if_pos (by omega)]
    · rw [if_neg h1]
      by_cases h2 : a = off
      · rw [if_pos h2, if_pos (by omega)]
      · rw [if_neg h2, if_neg (by omega)]

theorem Memory.store_wf (bs : List Byte) : ∀ {m : Memory} {off : Nat}, m.wf → (m.store off bs).wf := by
  induction bs with
  | nil => intro m off h; exact h
  | cons b bs ih => intro m off h; exact ih (Memory.write_wf h off b)

theorem Memory.store_within (bs : List Byte) (size : Nat) :
    ∀ {m : Memory} {off : Nat}, m.within size → off + bs.length ≤ size → (m.store off bs).within size := by
  induction bs with
  | nil => intro m off h _; exact h
  | cons b bs ih =>
    intro m off h hs
    simp only [List.length_cons] at hs
    exact ih (Memory.write_within h (by omega)) (by omega)

/-- A byte read after a store of a list: the listed byte inside the range, the old byte outside. -/
theorem Memory.read_store (bs : List Byte) :
    ∀ (m : Memory) (off a : Nat), m.wf →
      (m.store off bs).read a = if off ≤ a then (bs[a - off]?).getD (m.read a) else m.read a := by
  induction bs with
  | nil => intro m off a _; simp [Memory.store]
  | cons b bs ih =>
    intro m off a h
    simp only [Memory.store]
    rw [ih _ _ _ (Memory.write_wf h off b), Memory.read_write _ _ _ _ h]
    by_cases h1 : off + 1 ≤ a
    · have e : a - off = (a - (off + 1)) + 1 := by omega
      have h2 : off ≤ a := by omega
      have h3 : ¬ a = off := by omega
      rw [if_pos h1, if_pos h2, if_neg h3, e, List.getElem?_cons_succ]
    · by_cases h2 : a = off
      · subst h2; simp
      · rw [if_neg h1, if_neg h2, if_neg (by omega)]

theorem Memory.ofCells_wf (size : Nat) (cs : List Host.Cell) : (Memory.ofCells size cs).wf := by
  induction cs with
  | nil => exact ⟨List.Pairwise.nil, by simp [Memory.ofCells]⟩
  | cons c cs ih =>
    obtain ⟨k, v⟩ := c
    simp only [Memory.ofCells]
    split
    · exact Memory.write_wf ih k v
    · exact ih

theorem Memory.ofCells_within (size : Nat) (cs : List Host.Cell) : (Memory.ofCells size cs).within size := by
  induction cs with
  | nil => simp [Memory.ofCells]
  | cons c cs ih =>
    obtain ⟨k, v⟩ := c
    simp only [Memory.ofCells]
    split
    · rename_i hk; exact Memory.write_within ih hk
    · exact ih

end Sys2Proof.Machine
end

