-- ==== Sys2Proof/Laws/State.lean ====
section
/-!
SUPPORT. For each named update of the state, what every field is afterwards: one lemma per field, so that no later proof
unfolds a record update.
-/
namespace Sys2Proof.Machine

variable (s : State)

/-! ### writeReg -/

@[simp] theorem writeReg_plat (i : RegIdx) (v : Word) : (writeReg i v s).plat = s.plat := by unfold writeReg; split <;> rfl
@[simp] theorem writeReg_mode (i : RegIdx) (v : Word) : (writeReg i v s).mode = s.mode := by unfold writeReg; split <;> rfl
@[simp] theorem writeReg_pcStart (i : RegIdx) (v : Word) : (writeReg i v s).pcStart = s.pcStart := by unfold writeReg; split <;> rfl
@[simp] theorem writeReg_enabled (i : RegIdx) (v : Word) : (writeReg i v s).enabled = s.enabled := by unfold writeReg; split <;> rfl
@[simp] theorem writeReg_pending (i : RegIdx) (v : Word) : (writeReg i v s).pending = s.pending := by unfold writeReg; split <;> rfl
@[simp] theorem writeReg_memBankCtrl (i : RegIdx) (v : Word) : (writeReg i v s).memBankCtrl = s.memBankCtrl := by unfold writeReg; split <;> rfl
@[simp] theorem writeReg_errorStatus (i : RegIdx) (v : Word) : (writeReg i v s).errorStatus = s.errorStatus := by unfold writeReg; split <;> rfl
@[simp] theorem writeReg_initStart (i : RegIdx) (v : Word) : (writeReg i v s).initStart = s.initStart := by unfold writeReg; split <;> rfl
@[simp] theorem writeReg_initSel (i : RegIdx) (v : Word) : (writeReg i v s).initSel = s.initSel := by unfold writeReg; split <;> rfl
@[simp] theorem writeReg_initEnd (i : RegIdx) (v : Word) : (writeReg i v s).initEnd = s.initEnd := by unfold writeReg; split <;> rfl
@[simp] theorem writeReg_initStatus (i : RegIdx) (v : Word) : (writeReg i v s).initStatus = s.initStatus := by unfold writeReg; split <;> rfl
@[simp] theorem writeReg_scrubQueue (i : RegIdx) (v : Word) : (writeReg i v s).scrubQueue = s.scrubQueue := by unfold writeReg; split <;> rfl
@[simp] theorem writeReg_pc (i : RegIdx) (v : Word) : (writeReg i v s).pc = s.pc := by unfold writeReg; split <;> rfl
@[simp] theorem writeReg_halted (i : RegIdx) (v : Word) : (writeReg i v s).halted = s.halted := by unfold writeReg; split <;> rfl
@[simp] theorem writeReg_instret (i : RegIdx) (v : Word) : (writeReg i v s).instret = s.instret := by unfold writeReg; split <;> rfl
@[simp] theorem writeReg_imem (i : RegIdx) (v : Word) : (writeReg i v s).imem = s.imem := by unfold writeReg; split <;> rfl
@[simp] theorem writeReg_dmem (i : RegIdx) (v : Word) : (writeReg i v s).dmem = s.dmem := by unfold writeReg; split <;> rfl
@[simp] theorem writeReg_out (i : RegIdx) (v : Word) : (writeReg i v s).out = s.out := by unfold writeReg; split <;> rfl
@[simp] theorem writeReg_schedule (i : RegIdx) (v : Word) : (writeReg i v s).schedule = s.schedule := by unfold writeReg; split <;> rfl
@[simp] theorem writeReg_tick (i : RegIdx) (v : Word) : (writeReg i v s).tick = s.tick := by unfold writeReg; split <;> rfl

/-! ### logEvent -/

@[simp] theorem logEvent_plat (e : LogEvent) : (logEvent e s).plat = s.plat := rfl
@[simp] theorem logEvent_mode (e : LogEvent) : (logEvent e s).mode = s.mode := rfl
@[simp] theorem logEvent_pcStart (e : LogEvent) : (logEvent e s).pcStart = s.pcStart := rfl
@[simp] theorem logEvent_enabled (e : LogEvent) : (logEvent e s).enabled = s.enabled := rfl
@[simp] theorem logEvent_pending (e : LogEvent) : (logEvent e s).pending = s.pending := rfl
@[simp] theorem logEvent_memBankCtrl (e : LogEvent) : (logEvent e s).memBankCtrl = s.memBankCtrl := rfl
@[simp] theorem logEvent_errorStatus (e : LogEvent) : (logEvent e s).errorStatus = s.errorStatus := rfl
@[simp] theorem logEvent_initStart (e : LogEvent) : (logEvent e s).initStart = s.initStart := rfl
@[simp] theorem logEvent_initSel (e : LogEvent) : (logEvent e s).initSel = s.initSel := rfl
@[simp] theorem logEvent_initEnd (e : LogEvent) : (logEvent e s).initEnd = s.initEnd := rfl
@[simp] theorem logEvent_initStatus (e : LogEvent) : (logEvent e s).initStatus = s.initStatus := rfl
@[simp] theorem logEvent_scrubQueue (e : LogEvent) : (logEvent e s).scrubQueue = s.scrubQueue := rfl
@[simp] theorem logEvent_x (e : LogEvent) : (logEvent e s).x = s.x := rfl
@[simp] theorem logEvent_pc (e : LogEvent) : (logEvent e s).pc = s.pc := rfl
@[simp] theorem logEvent_halted (e : LogEvent) : (logEvent e s).halted = s.halted := rfl
@[simp] theorem logEvent_instret (e : LogEvent) : (logEvent e s).instret = s.instret := rfl
@[simp] theorem logEvent_imem (e : LogEvent) : (logEvent e s).imem = s.imem := rfl
@[simp] theorem logEvent_dmem (e : LogEvent) : (logEvent e s).dmem = s.dmem := rfl
@[simp] theorem logEvent_schedule (e : LogEvent) : (logEvent e s).schedule = s.schedule := rfl
@[simp] theorem logEvent_tick (e : LogEvent) : (logEvent e s).tick = s.tick := rfl

/-! ### logErr -/

@[simp] theorem logErr_plat (e : ErrEvent) : (logErr e s).plat = s.plat := rfl
@[simp] theorem logErr_mode (e : ErrEvent) : (logErr e s).mode = s.mode := rfl
@[simp] theorem logErr_pcStart (e : ErrEvent) : (logErr e s).pcStart = s.pcStart := rfl
@[simp] theorem logErr_enabled (e : ErrEvent) : (logErr e s).enabled = s.enabled := rfl
@[simp] theorem logErr_pending (e : ErrEvent) : (logErr e s).pending = s.pending := rfl
@[simp] theorem logErr_memBankCtrl (e : ErrEvent) : (logErr e s).memBankCtrl = s.memBankCtrl := rfl
@[simp] theorem logErr_errorStatus (e : ErrEvent) : (logErr e s).errorStatus = s.errorStatus := rfl
@[simp] theorem logErr_initStart (e : ErrEvent) : (logErr e s).initStart = s.initStart := rfl
@[simp] theorem logErr_initSel (e : ErrEvent) : (logErr e s).initSel = s.initSel := rfl
@[simp] theorem logErr_initEnd (e : ErrEvent) : (logErr e s).initEnd = s.initEnd := rfl
@[simp] theorem logErr_initStatus (e : ErrEvent) : (logErr e s).initStatus = s.initStatus := rfl
@[simp] theorem logErr_scrubQueue (e : ErrEvent) : (logErr e s).scrubQueue = s.scrubQueue := rfl
@[simp] theorem logErr_x (e : ErrEvent) : (logErr e s).x = s.x := rfl
@[simp] theorem logErr_pc (e : ErrEvent) : (logErr e s).pc = s.pc := rfl
@[simp] theorem logErr_halted (e : ErrEvent) : (logErr e s).halted = s.halted := rfl
@[simp] theorem logErr_instret (e : ErrEvent) : (logErr e s).instret = s.instret := rfl
@[simp] theorem logErr_imem (e : ErrEvent) : (logErr e s).imem = s.imem := rfl
@[simp] theorem logErr_dmem (e : ErrEvent) : (logErr e s).dmem = s.dmem := rfl
@[simp] theorem logErr_schedule (e : ErrEvent) : (logErr e s).schedule = s.schedule := rfl
@[simp] theorem logErr_tick (e : ErrEvent) : (logErr e s).tick = s.tick := rfl

/-! ### sendReply -/

@[simp] theorem sendReply_plat (r : Reply) : (sendReply r s).plat = s.plat := rfl
@[simp] theorem sendReply_mode (r : Reply) : (sendReply r s).mode = s.mode := rfl
@[simp] theorem sendReply_pcStart (r : Reply) : (sendReply r s).pcStart = s.pcStart := rfl
@[simp] theorem sendReply_enabled (r : Reply) : (sendReply r s).enabled = s.enabled := rfl
@[simp] theorem sendReply_pending (r : Reply) : (sendReply r s).pending = s.pending := rfl
@[simp] theorem sendReply_memBankCtrl (r : Reply) : (sendReply r s).memBankCtrl = s.memBankCtrl := rfl
@[simp] theorem sendReply_errorStatus (r : Reply) : (sendReply r s).errorStatus = s.errorStatus := rfl
@[simp] theorem sendReply_initStart (r : Reply) : (sendReply r s).initStart = s.initStart := rfl
@[simp] theorem sendReply_initSel (r : Reply) : (sendReply r s).initSel = s.initSel := rfl
@[simp] theorem sendReply_initEnd (r : Reply) : (sendReply r s).initEnd = s.initEnd := rfl
@[simp] theorem sendReply_initStatus (r : Reply) : (sendReply r s).initStatus = s.initStatus := rfl
@[simp] theorem sendReply_scrubQueue (r : Reply) : (sendReply r s).scrubQueue = s.scrubQueue := rfl
@[simp] theorem sendReply_x (r : Reply) : (sendReply r s).x = s.x := rfl
@[simp] theorem sendReply_pc (r : Reply) : (sendReply r s).pc = s.pc := rfl
@[simp] theorem sendReply_halted (r : Reply) : (sendReply r s).halted = s.halted := rfl
@[simp] theorem sendReply_instret (r : Reply) : (sendReply r s).instret = s.instret := rfl
@[simp] theorem sendReply_imem (r : Reply) : (sendReply r s).imem = s.imem := rfl
@[simp] theorem sendReply_dmem (r : Reply) : (sendReply r s).dmem = s.dmem := rfl
@[simp] theorem sendReply_schedule (r : Reply) : (sendReply r s).schedule = s.schedule := rfl
@[simp] theorem sendReply_tick (r : Reply) : (sendReply r s).tick = s.tick := rfl

/-! ### noteBusRead -/

@[simp] theorem noteBusRead_plat (a : Word) : (noteBusRead a s).plat = s.plat := rfl
@[simp] theorem noteBusRead_mode (a : Word) : (noteBusRead a s).mode = s.mode := rfl
@[simp] theorem noteBusRead_pcStart (a : Word) : (noteBusRead a s).pcStart = s.pcStart := rfl
@[simp] theorem noteBusRead_enabled (a : Word) : (noteBusRead a s).enabled = s.enabled := rfl
@[simp] theorem noteBusRead_pending (a : Word) : (noteBusRead a s).pending = s.pending := rfl
@[simp] theorem noteBusRead_memBankCtrl (a : Word) : (noteBusRead a s).memBankCtrl = s.memBankCtrl := rfl
@[simp] theorem noteBusRead_errorStatus (a : Word) : (noteBusRead a s).errorStatus = s.errorStatus := rfl
@[simp] theorem noteBusRead_initStart (a : Word) : (noteBusRead a s).initStart = s.initStart := rfl
@[simp] theorem noteBusRead_initSel (a : Word) : (noteBusRead a s).initSel = s.initSel := rfl
@[simp] theorem noteBusRead_initEnd (a : Word) : (noteBusRead a s).initEnd = s.initEnd := rfl
@[simp] theorem noteBusRead_initStatus (a : Word) : (noteBusRead a s).initStatus = s.initStatus := rfl
@[simp] theorem noteBusRead_scrubQueue (a : Word) : (noteBusRead a s).scrubQueue = s.scrubQueue := rfl
@[simp] theorem noteBusRead_x (a : Word) : (noteBusRead a s).x = s.x := rfl
@[simp] theorem noteBusRead_pc (a : Word) : (noteBusRead a s).pc = s.pc := rfl
@[simp] theorem noteBusRead_halted (a : Word) : (noteBusRead a s).halted = s.halted := rfl
@[simp] theorem noteBusRead_instret (a : Word) : (noteBusRead a s).instret = s.instret := rfl
@[simp] theorem noteBusRead_imem (a : Word) : (noteBusRead a s).imem = s.imem := rfl
@[simp] theorem noteBusRead_dmem (a : Word) : (noteBusRead a s).dmem = s.dmem := rfl
@[simp] theorem noteBusRead_schedule (a : Word) : (noteBusRead a s).schedule = s.schedule := rfl
@[simp] theorem noteBusRead_tick (a : Word) : (noteBusRead a s).tick = s.tick := rfl

/-! ### signalCore -/

@[simp] theorem signalCore_plat (c : CoreSignal) : (signalCore c s).plat = s.plat := rfl
@[simp] theorem signalCore_mode (c : CoreSignal) : (signalCore c s).mode = s.mode := rfl
@[simp] theorem signalCore_pcStart (c : CoreSignal) : (signalCore c s).pcStart = s.pcStart := rfl
@[simp] theorem signalCore_enabled (c : CoreSignal) : (signalCore c s).enabled = s.enabled := rfl
@[simp] theorem signalCore_pending (c : CoreSignal) : (signalCore c s).pending = s.pending := rfl
@[simp] theorem signalCore_memBankCtrl (c : CoreSignal) : (signalCore c s).memBankCtrl = s.memBankCtrl := rfl
@[simp] theorem signalCore_errorStatus (c : CoreSignal) : (signalCore c s).errorStatus = s.errorStatus := rfl
@[simp] theorem signalCore_initStart (c : CoreSignal) : (signalCore c s).initStart = s.initStart := rfl
@[simp] theorem signalCore_initSel (c : CoreSignal) : (signalCore c s).initSel = s.initSel := rfl
@[simp] theorem signalCore_initEnd (c : CoreSignal) : (signalCore c s).initEnd = s.initEnd := rfl
@[simp] theorem signalCore_initStatus (c : CoreSignal) : (signalCore c s).initStatus = s.initStatus := rfl
@[simp] theorem signalCore_scrubQueue (c : CoreSignal) : (signalCore c s).scrubQueue = s.scrubQueue := rfl
@[simp] theorem signalCore_x (c : CoreSignal) : (signalCore c s).x = s.x := rfl
@[simp] theorem signalCore_pc (c : CoreSignal) : (signalCore c s).pc = s.pc := rfl
@[simp] theorem signalCore_halted (c : CoreSignal) : (signalCore c s).halted = s.halted := rfl
@[simp] theorem signalCore_instret (c : CoreSignal) : (signalCore c s).instret = s.instret := rfl
@[simp] theorem signalCore_imem (c : CoreSignal) : (signalCore c s).imem = s.imem := rfl
@[simp] theorem signalCore_dmem (c : CoreSignal) : (signalCore c s).dmem = s.dmem := rfl
@[simp] theorem signalCore_schedule (c : CoreSignal) : (signalCore c s).schedule = s.schedule := rfl
@[simp] theorem signalCore_tick (c : CoreSignal) : (signalCore c s).tick = s.tick := rfl

/-! ### advanceCounter -/

@[simp] theorem advanceCounter_plat : (advanceCounter s).plat = s.plat := rfl
@[simp] theorem advanceCounter_mode : (advanceCounter s).mode = s.mode := rfl
@[simp] theorem advanceCounter_pcStart : (advanceCounter s).pcStart = s.pcStart := rfl
@[simp] theorem advanceCounter_enabled : (advanceCounter s).enabled = s.enabled := rfl
@[simp] theorem advanceCounter_pending : (advanceCounter s).pending = s.pending := rfl
@[simp] theorem advanceCounter_memBankCtrl : (advanceCounter s).memBankCtrl = s.memBankCtrl := rfl
@[simp] theorem advanceCounter_errorStatus : (advanceCounter s).errorStatus = s.errorStatus := rfl
@[simp] theorem advanceCounter_initStart : (advanceCounter s).initStart = s.initStart := rfl
@[simp] theorem advanceCounter_initSel : (advanceCounter s).initSel = s.initSel := rfl
@[simp] theorem advanceCounter_initEnd : (advanceCounter s).initEnd = s.initEnd := rfl
@[simp] theorem advanceCounter_initStatus : (advanceCounter s).initStatus = s.initStatus := rfl
@[simp] theorem advanceCounter_scrubQueue : (advanceCounter s).scrubQueue = s.scrubQueue := rfl
@[simp] theorem advanceCounter_x : (advanceCounter s).x = s.x := rfl
@[simp] theorem advanceCounter_pc : (advanceCounter s).pc = s.pc := rfl
@[simp] theorem advanceCounter_halted : (advanceCounter s).halted = s.halted := rfl
@[simp] theorem advanceCounter_imem : (advanceCounter s).imem = s.imem := rfl
@[simp] theorem advanceCounter_dmem : (advanceCounter s).dmem = s.dmem := rfl
@[simp] theorem advanceCounter_out : (advanceCounter s).out = s.out := rfl
@[simp] theorem advanceCounter_schedule : (advanceCounter s).schedule = s.schedule := rfl

/-! ### retire -/

@[simp] theorem retire_plat : (retire s).plat = s.plat := rfl
@[simp] theorem retire_mode : (retire s).mode = s.mode := rfl
@[simp] theorem retire_pcStart : (retire s).pcStart = s.pcStart := rfl
@[simp] theorem retire_enabled : (retire s).enabled = s.enabled := rfl
@[simp] theorem retire_pending : (retire s).pending = s.pending := rfl
@[simp] theorem retire_memBankCtrl : (retire s).memBankCtrl = s.memBankCtrl := rfl
@[simp] theorem retire_errorStatus : (retire s).errorStatus = s.errorStatus := rfl
@[simp] theorem retire_initStart : (retire s).initStart = s.initStart := rfl
@[simp] theorem retire_initSel : (retire s).initSel = s.initSel := rfl
@[simp] theorem retire_initEnd : (retire s).initEnd = s.initEnd := rfl
@[simp] theorem retire_initStatus : (retire s).initStatus = s.initStatus := rfl
@[simp] theorem retire_scrubQueue : (retire s).scrubQueue = s.scrubQueue := rfl
@[simp] theorem retire_x : (retire s).x = s.x := rfl
@[simp] theorem retire_halted : (retire s).halted = s.halted := rfl
@[simp] theorem retire_imem : (retire s).imem = s.imem := rfl
@[simp] theorem retire_dmem : (retire s).dmem = s.dmem := rfl
@[simp] theorem retire_out : (retire s).out = s.out := rfl
@[simp] theorem retire_schedule : (retire s).schedule = s.schedule := rfl

/-! ### setPc -/

@[simp] theorem setPc_plat (a : Word) : (setPc a s).plat = s.plat := rfl
@[simp] theorem setPc_mode (a : Word) : (setPc a s).mode = s.mode := rfl
@[simp] theorem setPc_pcStart (a : Word) : (setPc a s).pcStart = s.pcStart := rfl
@[simp] theorem setPc_enabled (a : Word) : (setPc a s).enabled = s.enabled := rfl
@[simp] theorem setPc_pending (a : Word) : (setPc a s).pending = s.pending := rfl
@[simp] theorem setPc_memBankCtrl (a : Word) : (setPc a s).memBankCtrl = s.memBankCtrl := rfl
@[simp] theorem setPc_errorStatus (a : Word) : (setPc a s).errorStatus = s.errorStatus := rfl
@[simp] theorem setPc_initStart (a : Word) : (setPc a s).initStart = s.initStart := rfl
@[simp] theorem setPc_initSel (a : Word) : (setPc a s).initSel = s.initSel := rfl
@[simp] theorem setPc_initEnd (a : Word) : (setPc a s).initEnd = s.initEnd := rfl
@[simp] theorem setPc_initStatus (a : Word) : (setPc a s).initStatus = s.initStatus := rfl
@[simp] theorem setPc_scrubQueue (a : Word) : (setPc a s).scrubQueue = s.scrubQueue := rfl
@[simp] theorem setPc_x (a : Word) : (setPc a s).x = s.x := rfl
@[simp] theorem setPc_halted (a : Word) : (setPc a s).halted = s.halted := rfl
@[simp] theorem setPc_instret (a : Word) : (setPc a s).instret = s.instret := rfl
@[simp] theorem setPc_imem (a : Word) : (setPc a s).imem = s.imem := rfl
@[simp] theorem setPc_dmem (a : Word) : (setPc a s).dmem = s.dmem := rfl
@[simp] theorem setPc_out (a : Word) : (setPc a s).out = s.out := rfl
@[simp] theorem setPc_schedule (a : Word) : (setPc a s).schedule = s.schedule := rfl
@[simp] theorem setPc_tick (a : Word) : (setPc a s).tick = s.tick := rfl

/-! ### haltIn -/

@[simp] theorem haltIn_plat (m : BitVec 2) : (haltIn m s).plat = s.plat := rfl
@[simp] theorem haltIn_pcStart (m : BitVec 2) : (haltIn m s).pcStart = s.pcStart := rfl
@[simp] theorem haltIn_enabled (m : BitVec 2) : (haltIn m s).enabled = s.enabled := rfl
@[simp] theorem haltIn_pending (m : BitVec 2) : (haltIn m s).pending = s.pending := rfl
@[simp] theorem haltIn_memBankCtrl (m : BitVec 2) : (haltIn m s).memBankCtrl = s.memBankCtrl := rfl
@[simp] theorem haltIn_errorStatus (m : BitVec 2) : (haltIn m s).errorStatus = s.errorStatus := rfl
@[simp] theorem haltIn_initStart (m : BitVec 2) : (haltIn m s).initStart = s.initStart := rfl
@[simp] theorem haltIn_initSel (m : BitVec 2) : (haltIn m s).initSel = s.initSel := rfl
@[simp] theorem haltIn_initEnd (m : BitVec 2) : (haltIn m s).initEnd = s.initEnd := rfl
@[simp] theorem haltIn_initStatus (m : BitVec 2) : (haltIn m s).initStatus = s.initStatus := rfl
@[simp] theorem haltIn_scrubQueue (m : BitVec 2) : (haltIn m s).scrubQueue = s.scrubQueue := rfl
@[simp] theorem haltIn_x (m : BitVec 2) : (haltIn m s).x = s.x := rfl
@[simp] theorem haltIn_pc (m : BitVec 2) : (haltIn m s).pc = s.pc := rfl
@[simp] theorem haltIn_instret (m : BitVec 2) : (haltIn m s).instret = s.instret := rfl
@[simp] theorem haltIn_imem (m : BitVec 2) : (haltIn m s).imem = s.imem := rfl
@[simp] theorem haltIn_dmem (m : BitVec 2) : (haltIn m s).dmem = s.dmem := rfl
@[simp] theorem haltIn_out (m : BitVec 2) : (haltIn m s).out = s.out := rfl
@[simp] theorem haltIn_schedule (m : BitVec 2) : (haltIn m s).schedule = s.schedule := rfl
@[simp] theorem haltIn_tick (m : BitVec 2) : (haltIn m s).tick = s.tick := rfl

/-! ### closeRequest -/

@[simp] theorem closeRequest_plat (q : List ScrubRequest) : (closeRequest q s).plat = s.plat := rfl
@[simp] theorem closeRequest_mode (q : List ScrubRequest) : (closeRequest q s).mode = s.mode := rfl
@[simp] theorem closeRequest_pcStart (q : List ScrubRequest) : (closeRequest q s).pcStart = s.pcStart := rfl
@[simp] theorem closeRequest_enabled (q : List ScrubRequest) : (closeRequest q s).enabled = s.enabled := rfl
@[simp] theorem closeRequest_pending (q : List ScrubRequest) : (closeRequest q s).pending = s.pending := rfl
@[simp] theorem closeRequest_memBankCtrl (q : List ScrubRequest) : (closeRequest q s).memBankCtrl = s.memBankCtrl := rfl
@[simp] theorem closeRequest_errorStatus (q : List ScrubRequest) : (closeRequest q s).errorStatus = s.errorStatus := rfl
@[simp] theorem closeRequest_initStart (q : List ScrubRequest) : (closeRequest q s).initStart = s.initStart := rfl
@[simp] theorem closeRequest_initSel (q : List ScrubRequest) : (closeRequest q s).initSel = s.initSel := rfl
@[simp] theorem closeRequest_initEnd (q : List ScrubRequest) : (closeRequest q s).initEnd = s.initEnd := rfl
@[simp] theorem closeRequest_x (q : List ScrubRequest) : (closeRequest q s).x = s.x := rfl
@[simp] theorem closeRequest_pc (q : List ScrubRequest) : (closeRequest q s).pc = s.pc := rfl
@[simp] theorem closeRequest_halted (q : List ScrubRequest) : (closeRequest q s).halted = s.halted := rfl
@[simp] theorem closeRequest_instret (q : List ScrubRequest) : (closeRequest q s).instret = s.instret := rfl
@[simp] theorem closeRequest_imem (q : List ScrubRequest) : (closeRequest q s).imem = s.imem := rfl
@[simp] theorem closeRequest_dmem (q : List ScrubRequest) : (closeRequest q s).dmem = s.dmem := rfl
@[simp] theorem closeRequest_out (q : List ScrubRequest) : (closeRequest q s).out = s.out := rfl
@[simp] theorem closeRequest_schedule (q : List ScrubRequest) : (closeRequest q s).schedule = s.schedule := rfl
@[simp] theorem closeRequest_tick (q : List ScrubRequest) : (closeRequest q s).tick = s.tick := rfl

/-! ### raiseIrq -/

@[simp] theorem raiseIrq_plat (k : Source) : (raiseIrq k s).plat = s.plat := rfl
@[simp] theorem raiseIrq_mode (k : Source) : (raiseIrq k s).mode = s.mode := rfl
@[simp] theorem raiseIrq_pcStart (k : Source) : (raiseIrq k s).pcStart = s.pcStart := rfl
@[simp] theorem raiseIrq_enabled (k : Source) : (raiseIrq k s).enabled = s.enabled := rfl
@[simp] theorem raiseIrq_memBankCtrl (k : Source) : (raiseIrq k s).memBankCtrl = s.memBankCtrl := rfl
@[simp] theorem raiseIrq_errorStatus (k : Source) : (raiseIrq k s).errorStatus = s.errorStatus := rfl
@[simp] theorem raiseIrq_initStart (k : Source) : (raiseIrq k s).initStart = s.initStart := rfl
@[simp] theorem raiseIrq_initSel (k : Source) : (raiseIrq k s).initSel = s.initSel := rfl
@[simp] theorem raiseIrq_initEnd (k : Source) : (raiseIrq k s).initEnd = s.initEnd := rfl
@[simp] theorem raiseIrq_initStatus (k : Source) : (raiseIrq k s).initStatus = s.initStatus := rfl
@[simp] theorem raiseIrq_scrubQueue (k : Source) : (raiseIrq k s).scrubQueue = s.scrubQueue := rfl
@[simp] theorem raiseIrq_x (k : Source) : (raiseIrq k s).x = s.x := rfl
@[simp] theorem raiseIrq_pc (k : Source) : (raiseIrq k s).pc = s.pc := rfl
@[simp] theorem raiseIrq_halted (k : Source) : (raiseIrq k s).halted = s.halted := rfl
@[simp] theorem raiseIrq_instret (k : Source) : (raiseIrq k s).instret = s.instret := rfl
@[simp] theorem raiseIrq_imem (k : Source) : (raiseIrq k s).imem = s.imem := rfl
@[simp] theorem raiseIrq_dmem (k : Source) : (raiseIrq k s).dmem = s.dmem := rfl
@[simp] theorem raiseIrq_out (k : Source) : (raiseIrq k s).out = s.out := rfl
@[simp] theorem raiseIrq_schedule (k : Source) : (raiseIrq k s).schedule = s.schedule := rfl
@[simp] theorem raiseIrq_tick (k : Source) : (raiseIrq k s).tick = s.tick := rfl

/-! ### checkRun -/

@[simp] theorem checkRun_plat (k : Source) : (checkRun k s).plat = s.plat := by unfold checkRun; split <;> rfl
@[simp] theorem checkRun_mode (k : Source) : (checkRun k s).mode = s.mode := by unfold checkRun; split <;> rfl
@[simp] theorem checkRun_pcStart (k : Source) : (checkRun k s).pcStart = s.pcStart := by unfold checkRun; split <;> rfl
@[simp] theorem checkRun_enabled (k : Source) : (checkRun k s).enabled = s.enabled := by unfold checkRun; split <;> rfl
@[simp] theorem checkRun_pending (k : Source) : (checkRun k s).pending = s.pending := by unfold checkRun; split <;> rfl
@[simp] theorem checkRun_memBankCtrl (k : Source) : (checkRun k s).memBankCtrl = s.memBankCtrl := by unfold checkRun; split <;> rfl
@[simp] theorem checkRun_errorStatus (k : Source) : (checkRun k s).errorStatus = s.errorStatus := by unfold checkRun; split <;> rfl
@[simp] theorem checkRun_initStart (k : Source) : (checkRun k s).initStart = s.initStart := by unfold checkRun; split <;> rfl
@[simp] theorem checkRun_initSel (k : Source) : (checkRun k s).initSel = s.initSel := by unfold checkRun; split <;> rfl
@[simp] theorem checkRun_initEnd (k : Source) : (checkRun k s).initEnd = s.initEnd := by unfold checkRun; split <;> rfl
@[simp] theorem checkRun_initStatus (k : Source) : (checkRun k s).initStatus = s.initStatus := by unfold checkRun; split <;> rfl
@[simp] theorem checkRun_scrubQueue (k : Source) : (checkRun k s).scrubQueue = s.scrubQueue := by unfold checkRun; split <;> rfl
@[simp] theorem checkRun_x (k : Source) : (checkRun k s).x = s.x := by unfold checkRun; split <;> rfl
@[simp] theorem checkRun_pc (k : Source) : (checkRun k s).pc = s.pc := by unfold checkRun; split <;> rfl
@[simp] theorem checkRun_halted (k : Source) : (checkRun k s).halted = s.halted := by unfold checkRun; split <;> rfl
@[simp] theorem checkRun_instret (k : Source) : (checkRun k s).instret = s.instret := by unfold checkRun; split <;> rfl
@[simp] theorem checkRun_imem (k : Source) : (checkRun k s).imem = s.imem := by unfold checkRun; split <;> rfl
@[simp] theorem checkRun_dmem (k : Source) : (checkRun k s).dmem = s.dmem := by unfold checkRun; split <;> rfl
@[simp] theorem checkRun_schedule (k : Source) : (checkRun k s).schedule = s.schedule := by unfold checkRun; split <;> rfl
@[simp] theorem checkRun_tick (k : Source) : (checkRun k s).tick = s.tick := by unfold checkRun; split <;> rfl

/-! ### handshake -/

@[simp] theorem handshake_plat (k : Source) (m : BitVec 2) : (handshake k m s).plat = s.plat := by unfold handshake; simp
@[simp] theorem handshake_pcStart (k : Source) (m : BitVec 2) : (handshake k m s).pcStart = s.pcStart := by unfold handshake; simp
@[simp] theorem handshake_enabled (k : Source) (m : BitVec 2) : (handshake k m s).enabled = s.enabled := by unfold handshake; simp
@[simp] theorem handshake_memBankCtrl (k : Source) (m : BitVec 2) : (handshake k m s).memBankCtrl = s.memBankCtrl := by unfold handshake; simp
@[simp] theorem handshake_errorStatus (k : Source) (m : BitVec 2) : (handshake k m s).errorStatus = s.errorStatus := by unfold handshake; simp
@[simp] theorem handshake_initStart (k : Source) (m : BitVec 2) : (handshake k m s).initStart = s.initStart := by unfold handshake; simp
@[simp] theorem handshake_initSel (k : Source) (m : BitVec 2) : (handshake k m s).initSel = s.initSel := by unfold handshake; simp
@[simp] theorem handshake_initEnd (k : Source) (m : BitVec 2) : (handshake k m s).initEnd = s.initEnd := by unfold handshake; simp
@[simp] theorem handshake_initStatus (k : Source) (m : BitVec 2) : (handshake k m s).initStatus = s.initStatus := by unfold handshake; simp
@[simp] theorem handshake_scrubQueue (k : Source) (m : BitVec 2) : (handshake k m s).scrubQueue = s.scrubQueue := by unfold handshake; simp
@[simp] theorem handshake_x (k : Source) (m : BitVec 2) : (handshake k m s).x = s.x := by unfold handshake; simp
@[simp] theorem handshake_pc (k : Source) (m : BitVec 2) : (handshake k m s).pc = s.pc := by unfold handshake; simp
@[simp] theorem handshake_instret (k : Source) (m : BitVec 2) : (handshake k m s).instret = s.instret := by unfold handshake; simp
@[simp] theorem handshake_imem (k : Source) (m : BitVec 2) : (handshake k m s).imem = s.imem := by unfold handshake; simp
@[simp] theorem handshake_dmem (k : Source) (m : BitVec 2) : (handshake k m s).dmem = s.dmem := by unfold handshake; simp
@[simp] theorem handshake_schedule (k : Source) (m : BitVec 2) : (handshake k m s).schedule = s.schedule := by unfold handshake; simp
@[simp] theorem handshake_tick (k : Source) (m : BitVec 2) : (handshake k m s).tick = s.tick := by unfold handshake; simp

/-! ### forgetCoreState -/

@[simp] theorem forgetCoreState_plat : (forgetCoreState s).plat = s.plat := rfl
@[simp] theorem forgetCoreState_mode : (forgetCoreState s).mode = s.mode := rfl
@[simp] theorem forgetCoreState_pcStart : (forgetCoreState s).pcStart = s.pcStart := rfl
@[simp] theorem forgetCoreState_enabled : (forgetCoreState s).enabled = s.enabled := rfl
@[simp] theorem forgetCoreState_pending : (forgetCoreState s).pending = s.pending := rfl
@[simp] theorem forgetCoreState_memBankCtrl : (forgetCoreState s).memBankCtrl = s.memBankCtrl := rfl
@[simp] theorem forgetCoreState_errorStatus : (forgetCoreState s).errorStatus = s.errorStatus := rfl
@[simp] theorem forgetCoreState_initStart : (forgetCoreState s).initStart = s.initStart := rfl
@[simp] theorem forgetCoreState_initSel : (forgetCoreState s).initSel = s.initSel := rfl
@[simp] theorem forgetCoreState_initEnd : (forgetCoreState s).initEnd = s.initEnd := rfl
@[simp] theorem forgetCoreState_initStatus : (forgetCoreState s).initStatus = s.initStatus := rfl
@[simp] theorem forgetCoreState_scrubQueue : (forgetCoreState s).scrubQueue = s.scrubQueue := rfl
@[simp] theorem forgetCoreState_pc : (forgetCoreState s).pc = s.pc := rfl
@[simp] theorem forgetCoreState_halted : (forgetCoreState s).halted = s.halted := rfl
@[simp] theorem forgetCoreState_imem : (forgetCoreState s).imem = s.imem := rfl
@[simp] theorem forgetCoreState_dmem : (forgetCoreState s).dmem = s.dmem := rfl
@[simp] theorem forgetCoreState_out : (forgetCoreState s).out = s.out := rfl
@[simp] theorem forgetCoreState_schedule : (forgetCoreState s).schedule = s.schedule := rfl

/-! ### coreReset -/

@[simp] theorem coreReset_plat : (coreReset s).plat = s.plat := rfl
@[simp] theorem coreReset_mode : (coreReset s).mode = s.mode := rfl
@[simp] theorem coreReset_pcStart : (coreReset s).pcStart = s.pcStart := rfl
@[simp] theorem coreReset_enabled : (coreReset s).enabled = s.enabled := rfl
@[simp] theorem coreReset_pending : (coreReset s).pending = s.pending := rfl
@[simp] theorem coreReset_memBankCtrl : (coreReset s).memBankCtrl = s.memBankCtrl := rfl
@[simp] theorem coreReset_errorStatus : (coreReset s).errorStatus = s.errorStatus := rfl
@[simp] theorem coreReset_initStart : (coreReset s).initStart = s.initStart := rfl
@[simp] theorem coreReset_initSel : (coreReset s).initSel = s.initSel := rfl
@[simp] theorem coreReset_initEnd : (coreReset s).initEnd = s.initEnd := rfl
@[simp] theorem coreReset_initStatus : (coreReset s).initStatus = s.initStatus := rfl
@[simp] theorem coreReset_scrubQueue : (coreReset s).scrubQueue = s.scrubQueue := rfl
@[simp] theorem coreReset_pc : (coreReset s).pc = s.pc := rfl
@[simp] theorem coreReset_halted : (coreReset s).halted = s.halted := rfl
@[simp] theorem coreReset_imem : (coreReset s).imem = s.imem := rfl
@[simp] theorem coreReset_dmem : (coreReset s).dmem = s.dmem := rfl
@[simp] theorem coreReset_schedule : (coreReset s).schedule = s.schedule := rfl

/-! ### resumeCore -/

@[simp] theorem resumeCore_plat : (resumeCore s).plat = s.plat := rfl
@[simp] theorem resumeCore_mode : (resumeCore s).mode = s.mode := rfl
@[simp] theorem resumeCore_pcStart : (resumeCore s).pcStart = s.pcStart := rfl
@[simp] theorem resumeCore_enabled : (resumeCore s).enabled = s.enabled := rfl
@[simp] theorem resumeCore_pending : (resumeCore s).pending = s.pending := rfl
@[simp] theorem resumeCore_memBankCtrl : (resumeCore s).memBankCtrl = s.memBankCtrl := rfl
@[simp] theorem resumeCore_errorStatus : (resumeCore s).errorStatus = s.errorStatus := rfl
@[simp] theorem resumeCore_initStart : (resumeCore s).initStart = s.initStart := rfl
@[simp] theorem resumeCore_initSel : (resumeCore s).initSel = s.initSel := rfl
@[simp] theorem resumeCore_initEnd : (resumeCore s).initEnd = s.initEnd := rfl
@[simp] theorem resumeCore_initStatus : (resumeCore s).initStatus = s.initStatus := rfl
@[simp] theorem resumeCore_scrubQueue : (resumeCore s).scrubQueue = s.scrubQueue := rfl
@[simp] theorem resumeCore_x : (resumeCore s).x = s.x := rfl
@[simp] theorem resumeCore_pc : (resumeCore s).pc = s.pc := rfl
@[simp] theorem resumeCore_instret : (resumeCore s).instret = s.instret := rfl
@[simp] theorem resumeCore_imem : (resumeCore s).imem = s.imem := rfl
@[simp] theorem resumeCore_dmem : (resumeCore s).dmem = s.dmem := rfl
@[simp] theorem resumeCore_schedule : (resumeCore s).schedule = s.schedule := rfl
@[simp] theorem resumeCore_tick : (resumeCore s).tick = s.tick := rfl

/-! ### setMem -/

@[simp] theorem setMem_plat (t : MemTarget) (m : Memory) : (setMem t m s).plat = s.plat := by cases t <;> rfl
@[simp] theorem setMem_mode (t : MemTarget) (m : Memory) : (setMem t m s).mode = s.mode := by cases t <;> rfl
@[simp] theorem setMem_pcStart (t : MemTarget) (m : Memory) : (setMem t m s).pcStart = s.pcStart := by cases t <;> rfl
@[simp] theorem setMem_enabled (t : MemTarget) (m : Memory) : (setMem t m s).enabled = s.enabled := by cases t <;> rfl
@[simp] theorem setMem_pending (t : MemTarget) (m : Memory) : (setMem t m s).pending = s.pending := by cases t <;> rfl
@[simp] theorem setMem_memBankCtrl (t : MemTarget) (m : Memory) : (setMem t m s).memBankCtrl = s.memBankCtrl := by cases t <;> rfl
@[simp] theorem setMem_errorStatus (t : MemTarget) (m : Memory) : (setMem t m s).errorStatus = s.errorStatus := by cases t <;> rfl
@[simp] theorem setMem_initStart (t : MemTarget) (m : Memory) : (setMem t m s).initStart = s.initStart := by cases t <;> rfl
@[simp] theorem setMem_initSel (t : MemTarget) (m : Memory) : (setMem t m s).initSel = s.initSel := by cases t <;> rfl
@[simp] theorem setMem_initEnd (t : MemTarget) (m : Memory) : (setMem t m s).initEnd = s.initEnd := by cases t <;> rfl
@[simp] theorem setMem_initStatus (t : MemTarget) (m : Memory) : (setMem t m s).initStatus = s.initStatus := by cases t <;> rfl
@[simp] theorem setMem_scrubQueue (t : MemTarget) (m : Memory) : (setMem t m s).scrubQueue = s.scrubQueue := by cases t <;> rfl
@[simp] theorem setMem_x (t : MemTarget) (m : Memory) : (setMem t m s).x = s.x := by cases t <;> rfl
@[simp] theorem setMem_pc (t : MemTarget) (m : Memory) : (setMem t m s).pc = s.pc := by cases t <;> rfl
@[simp] theorem setMem_halted (t : MemTarget) (m : Memory) : (setMem t m s).halted = s.halted := by cases t <;> rfl
@[simp] theorem setMem_instret (t : MemTarget) (m : Memory) : (setMem t m s).instret = s.instret := by cases t <;> rfl
@[simp] theorem setMem_out (t : MemTarget) (m : Memory) : (setMem t m s).out = s.out := by cases t <;> rfl
@[simp] theorem setMem_schedule (t : MemTarget) (m : Memory) : (setMem t m s).schedule = s.schedule := by cases t <;> rfl
@[simp] theorem setMem_tick (t : MemTarget) (m : Memory) : (setMem t m s).tick = s.tick := by cases t <;> rfl

/-! ### acceptScrub -/

@[simp] theorem acceptScrub_plat : (acceptScrub s).plat = s.plat := rfl
@[simp] theorem acceptScrub_mode : (acceptScrub s).mode = s.mode := rfl
@[simp] theorem acceptScrub_pcStart : (acceptScrub s).pcStart = s.pcStart := rfl
@[simp] theorem acceptScrub_enabled : (acceptScrub s).enabled = s.enabled := rfl
@[simp] theorem acceptScrub_pending : (acceptScrub s).pending = s.pending := rfl
@[simp] theorem acceptScrub_memBankCtrl : (acceptScrub s).memBankCtrl = s.memBankCtrl := rfl
@[simp] theorem acceptScrub_errorStatus : (acceptScrub s).errorStatus = s.errorStatus := rfl
@[simp] theorem acceptScrub_initStart : (acceptScrub s).initStart = s.initStart := rfl
@[simp] theorem acceptScrub_initSel : (acceptScrub s).initSel = s.initSel := rfl
@[simp] theorem acceptScrub_initEnd : (acceptScrub s).initEnd = s.initEnd := rfl
@[simp] theorem acceptScrub_x : (acceptScrub s).x = s.x := rfl
@[simp] theorem acceptScrub_pc : (acceptScrub s).pc = s.pc := rfl
@[simp] theorem acceptScrub_halted : (acceptScrub s).halted = s.halted := rfl
@[simp] theorem acceptScrub_instret : (acceptScrub s).instret = s.instret := rfl
@[simp] theorem acceptScrub_imem : (acceptScrub s).imem = s.imem := rfl
@[simp] theorem acceptScrub_dmem : (acceptScrub s).dmem = s.dmem := rfl
@[simp] theorem acceptScrub_out : (acceptScrub s).out = s.out := rfl
@[simp] theorem acceptScrub_schedule : (acceptScrub s).schedule = s.schedule := rfl
@[simp] theorem acceptScrub_tick : (acceptScrub s).tick = s.tick := rfl

/-! ### popTurn -/

@[simp] theorem popTurn_plat : (popTurn s).plat = s.plat := rfl
@[simp] theorem popTurn_mode : (popTurn s).mode = s.mode := rfl
@[simp] theorem popTurn_pcStart : (popTurn s).pcStart = s.pcStart := rfl
@[simp] theorem popTurn_enabled : (popTurn s).enabled = s.enabled := rfl
@[simp] theorem popTurn_pending : (popTurn s).pending = s.pending := rfl
@[simp] theorem popTurn_memBankCtrl : (popTurn s).memBankCtrl = s.memBankCtrl := rfl
@[simp] theorem popTurn_errorStatus : (popTurn s).errorStatus = s.errorStatus := rfl
@[simp] theorem popTurn_initStart : (popTurn s).initStart = s.initStart := rfl
@[simp] theorem popTurn_initSel : (popTurn s).initSel = s.initSel := rfl
@[simp] theorem popTurn_initEnd : (popTurn s).initEnd = s.initEnd := rfl
@[simp] theorem popTurn_initStatus : (popTurn s).initStatus = s.initStatus := rfl
@[simp] theorem popTurn_scrubQueue : (popTurn s).scrubQueue = s.scrubQueue := rfl
@[simp] theorem popTurn_x : (popTurn s).x = s.x := rfl
@[simp] theorem popTurn_pc : (popTurn s).pc = s.pc := rfl
@[simp] theorem popTurn_halted : (popTurn s).halted = s.halted := rfl
@[simp] theorem popTurn_instret : (popTurn s).instret = s.instret := rfl
@[simp] theorem popTurn_imem : (popTurn s).imem = s.imem := rfl
@[simp] theorem popTurn_dmem : (popTurn s).dmem = s.dmem := rfl
@[simp] theorem popTurn_out : (popTurn s).out = s.out := rfl
@[simp] theorem popTurn_tick : (popTurn s).tick = s.tick := rfl

/-! ### The fields an update writes -/

@[simp] theorem logEvent_log (e : LogEvent) : (logEvent e s).out.log = s.out.log ++ [e] := rfl
@[simp] theorem logEvent_busReads (e : LogEvent) : (logEvent e s).out.busReads = s.out.busReads := rfl
@[simp] theorem logEvent_replies (e : LogEvent) : (logEvent e s).out.replies = s.out.replies := rfl
@[simp] theorem logEvent_coreSignals (e : LogEvent) : (logEvent e s).out.coreSignals = s.out.coreSignals := rfl
@[simp] theorem logErr_log (e : ErrEvent) : (logErr e s).out.log = s.out.log ++ [.err e] := rfl
@[simp] theorem logErr_busReads (e : ErrEvent) : (logErr e s).out.busReads = s.out.busReads := rfl
@[simp] theorem logErr_replies (e : ErrEvent) : (logErr e s).out.replies = s.out.replies := rfl
@[simp] theorem logErr_coreSignals (e : ErrEvent) : (logErr e s).out.coreSignals = s.out.coreSignals := rfl
@[simp] theorem sendReply_replies (r : Reply) : (sendReply r s).out.replies = s.out.replies ++ [r] := rfl
@[simp] theorem sendReply_log (r : Reply) : (sendReply r s).out.log = s.out.log := rfl
@[simp] theorem noteBusRead_busReads (a : Word) : (noteBusRead a s).out.busReads = s.out.busReads ++ [a] := rfl
@[simp] theorem noteBusRead_log (a : Word) : (noteBusRead a s).out.log = s.out.log := rfl
@[simp] theorem noteBusRead_replies (a : Word) : (noteBusRead a s).out.replies = s.out.replies := rfl
@[simp] theorem noteBusRead_coreSignals (a : Word) : (noteBusRead a s).out.coreSignals = s.out.coreSignals := rfl
@[simp] theorem signalCore_coreSignals (c : CoreSignal) :
    (signalCore c s).out.coreSignals = s.out.coreSignals ++ [c] := rfl
@[simp] theorem signalCore_log (c : CoreSignal) : (signalCore c s).out.log = s.out.log := rfl
@[simp] theorem advanceCounter_instret :
    (advanceCounter s).instret = s.instret + Config.retireAdvance s.tick := rfl
@[simp] theorem advanceCounter_tick : (advanceCounter s).tick = s.tick + 1 := rfl
@[simp] theorem retire_pc : (retire s).pc = s.pc + 4#32 := rfl
@[simp] theorem retire_instret : (retire s).instret = s.instret + Config.retireAdvance s.tick := rfl
@[simp] theorem retire_tick : (retire s).tick = s.tick + 1 := rfl
@[simp] theorem setPc_pc (a : Word) : (setPc a s).pc = a := rfl
@[simp] theorem haltIn_mode (m : BitVec 2) : (haltIn m s).mode = m := rfl
@[simp] theorem haltIn_halted (m : BitVec 2) : (haltIn m s).halted = true := rfl
@[simp] theorem closeRequest_scrubQueue (q : List ScrubRequest) : (closeRequest q s).scrubQueue = q := rfl
@[simp] theorem closeRequest_initStatus (q : List ScrubRequest) :
    (closeRequest q s).initStatus = { pending := false, done := true } := rfl
@[simp] theorem forgetCoreState_x : (forgetCoreState s).x = Config.resetRegisters s.tick := rfl
@[simp] theorem forgetCoreState_instret : (forgetCoreState s).instret = Config.resetCounter s.tick := rfl
@[simp] theorem coreReset_coreSignals : (coreReset s).out.coreSignals = s.out.coreSignals ++ [.reset] := rfl
@[simp] theorem resumeCore_coreSignals : (resumeCore s).out.coreSignals = s.out.coreSignals ++ [.resume] := rfl
@[simp] theorem raiseIrq_pending (k : Source) : (raiseIrq k s).pending = s.pending ||| sourceMask k := rfl
@[simp] theorem handshake_mode (k : Source) (m : BitVec 2) : (handshake k m s).mode = m := rfl
@[simp] theorem handshake_halted (k : Source) (m : BitVec 2) : (handshake k m s).halted = true := rfl
@[simp] theorem handshake_pending (k : Source) (m : BitVec 2) :
    (handshake k m s).pending = s.pending ||| sourceMask k := by
  unfold handshake raiseIrq setBits; simp
@[simp] theorem resumeCore_halted : (resumeCore s).halted = false := rfl
@[simp] theorem popTurn_schedule : (popTurn s).schedule = s.schedule.tail := rfl
@[simp] theorem acceptScrub_scrubQueue : (acceptScrub s).scrubQueue = s.scrubQueue ++ [capturedRequest s] := rfl
@[simp] theorem acceptScrub_initStatus : (acceptScrub s).initStatus = { pending := true, done := false } := rfl
@[simp] theorem memOf_setMem_same (t : MemTarget) (m : Memory) : memOf t (setMem t m s) = m := by
  cases t <;> rfl
theorem memOf_setMem_ne (t u : MemTarget) (m : Memory) (h : u ≠ t) : memOf u (setMem t m s) = memOf u s := by
  cases t <;> cases u <;> first | rfl | exact absurd rfl h

end Sys2Proof.Machine
end

