-- ==== Sys2Proof/Laws/Ops.lean ====
section
/-!
SUPPORT. What each shared operation can do, said once: the bus read and the text loop of `simprint`, the handshake, the
Control write, the erase, the completion.
-/
namespace Sys2Proof.Machine

/-! ### Registers -/

theorem readReg_zero (s : State) : readReg 0#5 s = 0#32 := rfl

theorem readReg_of_ne {i : RegIdx} (h : i ≠ 0#5) (s : State) : readReg i s = s.x[i.toNat]'i.isLt := by
  unfold readReg
  have : (i == 0#5) = false := by simpa using h
  simp [this]

theorem writeReg_zero (v : Word) (s : State) : writeReg 0#5 v s = s := rfl

theorem writeReg_of_ne {i : RegIdx} (h : i ≠ 0#5) (v : Word) (s : State) :
    writeReg i v s = { s with x := s.x.set i.toNat v i.isLt } := by
  unfold writeReg
  have : (i == 0#5) = false := by simpa using h
  simp [this]

/-- Reading a register depends on the register file alone. -/
theorem readReg_congr {s t : State} (h : t.x = s.x) (i : RegIdx) : readReg i t = readReg i s := by
  unfold readReg; rw [h]

/-! ### The bus read and the text of `simprint` -/

/-- A bus read that answers notes its address and may draw a free value; it changes nothing else. -/
theorem busRead_ok {a : Word} {s s' : State} {b : Byte} (h : busRead a s = .ok (b, s')) :
    Safety.answered s.plat a ∧
      s' = { s with out := { s.out with busReads := s.out.busReads ++ [a] }, tick := s'.tick } ∧
      (Safety.mapsToMemory s.plat a → b = Safety.byteAt s a ∧ s'.tick = s.tick) := by
  unfold busRead at h
  cases hb : busTarget s.plat a with
  | registerFile => simp [hb] at h
  | nothing => simp [hb] at h
  | memory t off =>
    simp only [hb, Except.ok.injEq, Prod.mk.injEq] at h
    obtain ⟨rfl, rfl⟩ := h
    exact ⟨by simp [Safety.answered, hb], rfl, fun _ => ⟨by simp [Safety.byteAt, hb], rfl⟩⟩
  | other =>
    simp only [hb, Except.ok.injEq, Prod.mk.injEq] at h
    obtain ⟨rfl, rfl⟩ := h
    exact ⟨by simp [Safety.answered, hb], rfl, fun ⟨t, off, e⟩ => by rw [hb] at e; cases e⟩

/-- A bus read is refused exactly for the two reasons of R10. -/
theorem busRead_error {a : Word} {s : State} {r : Refusal} (h : busRead a s = .error r) :
    (r = .busUnanswered a ∧ busTarget s.plat a = .nothing) ∨
      (r = .busReadOfRegisterFile a ∧ busTarget s.plat a = .registerFile) := by
  unfold busRead at h
  cases hb : busTarget s.plat a <;> simp [hb] at h
  · exact .inr ⟨h.symm, rfl⟩
  · exact .inl ⟨h.symm, rfl⟩

/-- A byte in one of the memories is read without a free value. -/
theorem busRead_memory {a : Word} {s : State} (h : Safety.mapsToMemory s.plat a) :
    busRead a s = .ok (Safety.byteAt s a, noteBusRead a s) := by
  obtain ⟨t, off, e⟩ := h
  simp [busRead, Safety.byteAt, e]

/-- The text loop notes addresses on the bus and may draw free values; it changes nothing else, and its characters are nonzero. -/
theorem readText_ok {n : Nat} : ∀ {ptr : Word} {s s' : State} {text : List (BitVec 7)},
    readText n ptr s = .ok (text, s') →
      text.length ≤ n ∧ (∀ c ∈ text, c ≠ 0#7) ∧
      s' = { s with
        out := { s.out with
          busReads := s.out.busReads ++ Safety.addressesFrom ptr (min n (text.length + 1)) }
        tick := s'.tick } := by
  induction n with
  | zero =>
    intro ptr s s' text h
    simp only [readText, Except.ok.injEq, Prod.mk.injEq] at h
    obtain ⟨rfl, rfl⟩ := h
    simp [Safety.addressesFrom]
  | succ n ih =>
    intro ptr s s' text h
    simp only [readText] at h
    cases hb : busRead ptr s with
    | error r => simp [hb] at h
    | ok p =>
      obtain ⟨b, s1⟩ := p
      simp only [hb] at h
      obtain ⟨-, hs1, -⟩ := busRead_ok hb
      split at h
      · simp only [Except.ok.injEq, Prod.mk.injEq] at h
        obtain ⟨rfl, rfl⟩ := h
        refine ⟨by simp, by simp, ?_⟩
        rw [hs1]
        simp [Safety.addressesFrom]
      · rename_i hc
        cases ht : readText n (ptr + 1#32) s1 with
        | error r => simp [ht] at h
        | ok q =>
          obtain ⟨cs, s2⟩ := q
          simp only [ht, Except.ok.injEq, Prod.mk.injEq] at h
          obtain ⟨rfl, rfl⟩ := h
          obtain ⟨hl, hz, hs2⟩ := ih ht
          refine ⟨by simp; omega, ?_, ?_⟩
          · intro c hc'
            rcases List.mem_cons.mp hc' with rfl | hc'
            · exact hc
            · exact hz c hc'
          · rw [hs2, hs1]
            have e : min (n + 1) ((maskChar b :: cs).length + 1) = min n (cs.length + 1) + 1 := by
              simp only [List.length_cons]; omega
            have e2 : Safety.addressesFrom ptr (min n (cs.length + 1) + 1) =
                ptr :: Safety.addressesFrom (ptr + 1#32) (min n (cs.length + 1)) := by
              simp only [Safety.addressesFrom, List.range_succ_eq_map, List.map_cons, List.map_map]
              congr 1
              · simp
              · apply List.map_congr_left
                intro i _
                simp only [Function.comp, Nat.succ_eq_add_one, BitVec.ofNat_add]
                rw [BitVec.add_assoc, BitVec.add_comm (BitVec.ofNat 32 i)]
            rw [e, e2]
            simp

/-! ### Handshake and Control write -/

/-- A handshake writes the log, the mode, the halted flag and one pending bit. -/
theorem handshake_eq (k : Source) (m : BitVec 2) (s : State) :
    handshake k m s = { s with
      mode := m
      halted := true
      pending := s.pending ||| sourceMask k
      out := { s.out with
        log := s.out.log ++ [if s.mode = 0#2 then .handshake k else .err (.handshakeNotInRun k)] } } := by
  unfold handshake checkRun haltIn raiseIrq setBits logErr logEvent modeRun
  split <;> rfl

/-- A Control write changes only the mode, the payload and what its steps do to the core. -/
theorem controlWrite_frame (v : Word) (s : State) :
    controlWrite v s = { s with
      mode := controlMode v
      pcStart := controlPayload v
      halted := (controlWrite v s).halted
      pc := (controlWrite v s).pc
      x := (controlWrite v s).x
      instret := (controlWrite v s).instret
      tick := (controlWrite v s).tick
      out := { s.out with coreSignals := (controlWrite v s).out.coreSignals } } := by
  unfold controlWrite controlStore controlResume controlReset controlHalt setPc coreReset forgetCoreState resumeCore signalCore
  split <;> split <;> split <;> rfl

theorem controlWrite_halted (v : Word) (s : State) :
    (controlWrite v s).halted =
      if s.mode = modeRun ∧ controlMode v ≠ modeRun then true
      else if s.mode ≠ modeRun ∧ controlMode v = modeRun then false
      else s.halted := by
  unfold controlWrite controlStore controlResume controlReset controlHalt
  by_cases h1 : s.mode = modeRun ∧ controlMode v ≠ modeRun
  · have h2 : ¬ (s.mode ≠ modeRun ∧ controlMode v = modeRun) := fun h => h.1 h1.1
    rw [if_pos h1, if_pos h1, if_neg h2]
    split <;> rfl
  · rw [if_neg h1, if_neg h1]
    split
    · rfl
    · split <;> rfl

/-- Without the core reset of step 2 the pc, the registers and the counter stay. -/
theorem controlWrite_core_kept {v : Word} {s : State}
    (h : ¬ (softwareResetFlag s.mode = true ∧ softwareResetFlag (controlMode v) = false)) :
    (controlWrite v s).pc = s.pc ∧ (controlWrite v s).x = s.x ∧ (controlWrite v s).instret = s.instret ∧
      (controlWrite v s).tick = s.tick := by
  unfold controlWrite controlStore controlResume controlReset controlHalt
  rw [if_neg h]
  split <;> split <;> exact ⟨rfl, rfl, rfl, rfl⟩

/-! ### The erase -/

theorem erasePages_wf (page : Nat) (b : Byte) (n : Nat) :
    ∀ {a : Nat} {m : Memory}, m.wf → (erasePages page b n a m).wf := by
  induction n with
  | zero => intro a m h; exact h
  | succ n ih => intro a m h; exact ih (Memory.fill_wf page b h)

theorem erasePages_within (page : Nat) (b : Byte) (size n : Nat) :
    ∀ {a : Nat} {m : Memory}, m.within size → a + n * page ≤ size → (erasePages page b n a m).within size := by
  induction n with
  | zero => intro a m h _; exact h
  | succ n ih =>
    intro a m h hs
    rw [Nat.succ_mul] at hs
    exact ih (Memory.fill_within page b size h (by omega)) (by omega)

/-- A byte read after erasing whole pages: the erase byte inside them, the old byte outside. -/
theorem read_erasePages (page : Nat) (b : Byte) (n : Nat) :
    ∀ (a : Nat) (m : Memory) (o : Nat), m.wf →
      (erasePages page b n a m).read o = if a ≤ o ∧ o < a + n * page then b else m.read o := by
  induction n with
  | zero => intro a m o _; rw [if_neg (by omega)]; rfl
  | succ n ih =>
    intro a m o h
    simp only [erasePages]
    rw [ih _ _ _ (Memory.fill_wf page b h), Memory.read_fill _ _ _ _ _ h, Nat.succ_mul]
    by_cases h1 : a + page ≤ o ∧ o < a + page + n * page
    · rw [if_pos h1, if_pos (by omega)]
    · rw [if_neg h1]
      by_cases h2 : a ≤ o ∧ o < a + page
      · rw [if_pos h2, if_pos (by omega)]
      · rw [if_neg h2, if_neg (by omega)]

theorem roundDown_mod {page : Nat} (n : Nat) : roundDown page n % page = 0 := by
  unfold roundDown
  have := Nat.div_add_mod n page
  rw [show n - n % page = page * (n / page) by omega]
  exact Nat.mul_mod_right page _

theorem pageSize_pos (t : MemTarget) : 0 < pageSize t := by cases t <;> decide

/-- The pages of the loop cover the aligned range exactly, when it is not empty. -/
theorem pageCount_mul (r : ScrubRequest) :
    pageCount r * pageSize r.target = alignedEnd r - alignedStart r := by
  unfold pageCount
  apply Nat.div_mul_cancel
  have h1 : pageSize r.target ∣ alignedEnd r := Nat.dvd_of_mod_eq_zero (roundDown_mod _)
  have h2 : pageSize r.target ∣ alignedStart r := Nat.dvd_of_mod_eq_zero (roundDown_mod _)
  exact Nat.dvd_sub h1 h2

/-- An erase fills exactly the aligned range. -/
theorem read_eraseMemory (b : Byte) (r : ScrubRequest) {m : Memory} (a : Nat) (h : m.wf) :
    (eraseMemory b r m).read a = if alignedStart r ≤ a ∧ a < alignedEnd r then b else m.read a := by
  unfold eraseMemory
  rw [read_erasePages _ _ _ _ _ _ h, pageCount_mul]
  by_cases hc : alignedStart r ≤ a ∧ a < alignedEnd r
  · rw [if_pos hc, if_pos (by omega)]
  · rw [if_neg hc, if_neg (by omega)]

theorem eraseMemory_wf (b : Byte) (r : ScrubRequest) {m : Memory} (h : m.wf) : (eraseMemory b r m).wf :=
  erasePages_wf _ _ _ h

/-- What a completion does when it answers a next state. -/
theorem completeScrub_next {s t : State} (h : completeScrub s = .next t) :
    (s.scrubQueue = [] ∧ t = s) ∨
      ∃ r rest, s.scrubQueue = r :: rest ∧ beyondExtent s.plat r = false ∧
        t = closeRequest rest (setMem r.target (eraseMemory s.plat.eraseByte r (memOf r.target s)) s) := by
  unfold completeScrub at h
  cases hq : s.scrubQueue with
  | nil => simp only [hq] at h; cases h; exact .inl ⟨rfl, rfl⟩
  | cons r rest =>
    simp only [hq] at h
    cases hb : beyondExtent s.plat r with
    | true => simp [hb] at h
    | false =>
      simp only [hb] at h
      cases h
      exact .inr ⟨r, rest, rfl, hb, rfl⟩

end Sys2Proof.Machine
end

