-- ==== Sys2Proof/Laws/PerInstr.lean ====
section
/-!
SUPPORT. Statements made instruction by instruction. `CustomOpcode`: the encoding of every instruction lies under the block's opcode
pattern (R91), so that the core hands it to the block.
-/
namespace Sys2Proof.Laws

/-- The low seven bits of a word made from fields are the opcode. -/
theorem encodeFields_opcode (f7 : BitVec 7) (rs2 rs1 : RegIdx) (f3 : BitVec 3) (rd : RegIdx) :
    matchesPattern (encodeFields f7 rs2 rs1 f3 rd) = true := by
  unfold matchesPattern encodeFields
  rw [BitVec.extractLsb'_append_eq_of_add_le (by decide)]
  decide

/-- The encoded word of the instruction is under the pattern of R91. -/
def CustomOpcode.Statement (i : Instr) : Prop := matchesPattern (encode i) = true

theorem CustomOpcode.simprint (rd rs1 rs2 : RegIdx) : CustomOpcode.Statement (.simprint rd rs1 rs2) :=
  encodeFields_opcode _ _ _ _ _

theorem CustomOpcode.xcount (rd sel : RegIdx) : CustomOpcode.Statement (.xcount rd sel) :=
  encodeFields_opcode _ _ _ _ _

theorem CustomOpcode.xcountBadsel (rd sel : RegIdx) : CustomOpcode.Statement (.xcountBadsel rd sel) :=
  encodeFields_opcode _ _ _ _ _

theorem CustomOpcode.hostreq : CustomOpcode.Statement .hostreq := encodeFields_opcode _ _ _ _ _

theorem CustomOpcode.finish : CustomOpcode.Statement .finish := encodeFields_opcode _ _ _ _ _

theorem CustomOpcode.unrecognised (funct3 : BitVec 3) : CustomOpcode.Statement (.unrecognised funct3) :=
  encodeFields_opcode _ _ _ _ _

end Sys2Proof.Laws
end

