-- ==== Sys2Proof/Laws/Step.lean ====
section
/-!
SUPPORT. What one step can do: whose turn it was and what that agent's action answered; what a scheduled action and a register
write answer; what an instruction can answer; and that the reset memories are in canonical form.
-/
namespace Sys2Proof.Machine

/-- A step is nobody's, the core's or another agent's. -/
theorem step_next {s t : State} (h : step s = .next t) :
    (nextTurn s = none ∧ t = s) ∨
      (nextTurn s = some .core ∧ coreTurn (popTurn s) = .next t) ∨
      ∃ a, nextTurn s = some (.env a) ∧ perform a (popTurn s) = .next t := by
  unfold step at h
  cases hn : nextTurn s with
  | none => simp only [hn] at h; cases h; exact .inl ⟨rfl, rfl⟩
  | some turn =>
    simp only [hn] at h
    cases turn with
    | core => exact .inr (.inl ⟨rfl, h⟩)
    | env a => exact .inr (.inr ⟨a, rfl, h⟩)

/-- A scheduled action of another agent is what the step performs, with the turn taken off. -/
theorem step_env {s : State} {a : EnvAction} {rest : List Turn} (h : s.schedule = .env a :: rest) :
    step s = perform a { s with schedule := rest } := by
  unfold step nextTurn popTurn
  simp only [h, takeTurn, List.tail_cons]

/-- The access is an aligned word, as the statements say it. -/
theorem wordAccess_iff (off : BitVec 10) (width : AccessWidth) :
    wordAccess off width = true ↔ width = .word ∧ off.toNat % 4 = 0 := by
  have : (off.extractLsb' 0 2 == 0#2) = decide (off.toNat % 4 = 0) := by
    rw [Bool.eq_iff_iff, beq_iff_eq, decide_eq_true_iff, ← BitVec.toNat_inj]
    simp
  unfold wordAccess
  cases width <;> simp [this]

/-- No register stands at the offsets of 0x24 and above (R211). -/
theorem regAt_none {off : BitVec 10} (h : 0x24 ≤ off.toNat) : regAt off = none := by
  simp only [regAt, List.find?_eq_none]
  intro r _ e
  have : off = regOffset r := by simpa using (beq_iff_eq.mp e).symm
  subst this
  cases r <;> simp [regOffset] at h

/-- A scheduled register write of an aligned word is the store of its offset. -/
theorem step_regWrite {s : State} {off : BitVec 10} {v : Word} {rest : List Turn}
    (h : s.schedule = .env (.regWrite off .word v) :: rest) (ha : off.toNat % 4 = 0) :
    step s = .next (offsetStore off v { s with schedule := rest }) := by
  rw [step_env h]
  exact if_pos ((wordAccess_iff off .word).mpr ⟨rfl, ha⟩)

/-- A core's turn is idle while halted, and otherwise the execution of the fetched instruction. -/
theorem coreTurn_next {s t : State} (h : coreTurn s = .next t) :
    (s.halted = true ∧ t = s) ∨ ∃ i, s.halted = false ∧ fetch s = .ok i ∧ exec i s = .next t := by
  unfold coreTurn at h
  cases hh : s.halted with
  | true => simp only [hh] at h; cases h; exact .inl ⟨rfl, rfl⟩
  | false =>
    simp only [hh] at h
    cases hf : fetch s with
    | error r => simp [hf] at h
    | ok i => simp only [hf] at h; exact .inr ⟨i, rfl, rfl, h⟩

/-- Every next state of an instruction is the end of the dispatch after its handler: an error record, a print record, a register write, or
a handshake. -/
theorem exec_next {i : Instr} {s t : State} (h : exec i s = .next t) :
    (∃ e, t = retire (logErr e s)) ∨
      (∃ rd rs1 rs2 sev text s', i = .simprint rd rs1 rs2 ∧
        readText Config.simprintMax (readReg rs1 s) s = .ok (text, s') ∧
        t = retire (logEvent (.print sev text (readReg rs2 s)) s')) ∨
      (∃ rd sel, (i = .xcount rd sel ∨ i = .xcountBadsel rd sel) ∧ validSelector sel = true ∧
        t = retire (writeReg rd (counterSample s) s)) ∨
      (i = .hostreq ∧ t = retire (hostRequest s)) ∨
      (i = .finish ∧ t = retire (completionNotify s)) := by
  cases i with
  | simprint rd rs1 rs2 =>
    simp only [exec, execSimprint] at h
    split at h
    · cases h; exact .inl ⟨_, rfl⟩
    · rename_i sev _
      cases ht : readText Config.simprintMax (readReg rs1 s) s with
      | error r => simp [ht] at h
      | ok p =>
        obtain ⟨text, s'⟩ := p
        simp only [ht] at h
        cases h
        exact .inr (.inl ⟨rd, rs1, rs2, sev, text, s', rfl, ht, rfl⟩)
  | xcount rd sel =>
    simp only [exec, execXcount, countOrReject] at h
    split at h
    · cases h; rename_i hv; exact .inr (.inr (.inl ⟨rd, sel, .inl rfl, hv, rfl⟩))
    · cases h; exact .inl ⟨_, rfl⟩
  | xcountBadsel rd sel =>
    simp only [exec, execXcountBadsel, countOrReject] at h
    split at h
    · cases h; rename_i hv; exact .inr (.inr (.inl ⟨rd, sel, .inr rfl, hv, rfl⟩))
    · cases h; exact .inl ⟨_, rfl⟩
  | hostreq =>
    simp only [exec, execHostreq, Config.controlBlockAttached, if_true] at h
    cases h; exact .inr (.inr (.inr (.inl ⟨rfl, rfl⟩)))
  | finish =>
    simp only [exec, execFinish, Config.controlBlockAttached, if_true] at h
    cases h; exact .inr (.inr (.inr (.inr ⟨rfl, rfl⟩)))
  | unrecognised f =>
    simp only [exec, execUnrecognised] at h
    cases h; exact .inl ⟨_, rfl⟩

/-- The memories of the reset state are in canonical form. -/
theorem reset_memories_wf : State.reset.imem.wf ∧ State.reset.dmem.wf :=
  ⟨⟨List.Pairwise.nil, by simp [State.reset]⟩, ⟨List.Pairwise.nil, by simp [State.reset]⟩⟩

end Sys2Proof.Machine
end

