-- ==== Sys2Proof/Tests/Slice0.lean ====
section
/-!
SUPPORT. Tests, their expected values taken from the spec's vectors (95_test_vectors.md, cited by id) or from the encodings
of 30_encoding.md, and a witness for the hypotheses of every statement that has some.
-/
namespace Sys2Proof.Tests

open Sys2Proof Sys2Proof.Machine Sys2Proof.Safety

/-! ### Small states -/

/-- A platform with short memories at 0x1000 and 0x2000, one other window at 0x3000, and an erase byte of its own. -/
def plat : Config.Platform where
  imemBase := 0x00001000#32
  imemSize := 0x200
  dmemBase := 0x00002000#32
  dmemSize := 0x200
  ctrlBase := 0x80000000#32
  otherWindows := [{ base := 0x00003000#32, size := 0x200 }]
  eraseByte := 0xA5#8
  csrCountA := 0xC00#12
  csrCountB := 0xC80#12
  counterWidth := 64
  pcStartShift := .zero
  faultInputWired := true

/-- A running core at IMEM_BASE, nothing scheduled. -/
def base : State := { State.reset with plat := plat, mode := 0#2, halted := false, pc := 0x00001000#32, instret := 7 }

/-- The state after reset over the small platform. -/
def held : State := { State.reset with plat := plat }

/-- A general register set. -/
def withReg (i : RegIdx) (v : Word) (s : State) : State := writeReg i v s

/-- Bytes put into data memory. -/
def withData (off : Nat) (bs : List Byte) (s : State) : State := { s with dmem := s.dmem.store off bs }

/-- Bytes put into instruction memory. -/
def withCode (off : Nat) (bs : List Byte) (s : State) : State := { s with imem := s.imem.store off bs }

/-- One action scheduled. -/
def doing (a : EnvAction) (s : State) : State := { s with schedule := [.env a] }

/-- A next state with a property. -/
def nextIs (o : Result) (p : State → Bool) : Bool :=
  match o with
  | .next t => p t
  | .fault _ => false
  | .refused _ => false

/-- T2.1: level 2 in x10, the string's address in x11, the number 42 in x12, "Hi" at 0x2010. -/
def printing : State :=
  withReg 10#5 2#32 (withReg 11#5 0x00002010#32 (withReg 12#5 42#32 (withData 0x10 [0x48#8, 0x69#8, 0x00#8] base)))

/-! ### Well-formedness -/

theorem test_wf_xcount_selector : (Instr.xcount 5#5 2#5).wellFormed = false := by decide
theorem test_wf_badsel_selector : (Instr.xcountBadsel 5#5 1#5).wellFormed = false := by decide
theorem test_wf_unrecognised_funct3 : (Instr.unrecognised 3#3).wellFormed = false := by decide

/-! ### Decoding: words written out from R90 and R94 (T1, T2) -/

/-- T2.1: bits 0000000 01100 01011 000 01010 1111011. -/
theorem test_decode_simprint :
    decodeWord (0b0000000#7 ++ 0b01100#5 ++ 0b01011#5 ++ 0b000#3 ++ 0b01010#5 ++ 0b1111011#7)
      = .ok (.simprint 10#5 11#5 12#5) := by decide
/-- T2.11. -/
theorem test_decode_xcount :
    decodeWord (0b0000000#7 ++ 0b00000#5 ++ 0b00001#5 ++ 0b001#3 ++ 0b00110#5 ++ 0b1111011#7)
      = .ok (.xcount 6#5 1#5) := by decide
/-- T2.14. -/
theorem test_decode_badsel :
    decodeWord (0b0000000#7 ++ 0b00000#5 ++ 0b11111#5 ++ 0b001#3 ++ 0b11111#5 ++ 0b1111011#7)
      = .ok (.xcountBadsel 31#5 31#5) := by decide
/-- T2.16: the unused fields of `hostreq` hold values. -/
theorem test_decode_hostreq :
    decodeWord (0b0101010#7 ++ 0b11110#5 ++ 0b01001#5 ++ 0b010#3 ++ 0b10001#5 ++ 0b1111011#7) = .ok .hostreq := by
  decide
/-- T2.18. -/
theorem test_decode_finish :
    decodeWord (0b1000000#7 ++ 0b00011#5 ++ 0b00010#5 ++ 0b011#3 ++ 0b00001#5 ++ 0b1111011#7) = .ok .finish := by
  decide
/-- T2.23, T2.20. -/
theorem test_decode_unrecognised :
    decodeWord 0xFFFFFFFB#32 = .ok (.unrecognised 7#3) ∧ decodeWord 0x0000407B#32 = .ok (.unrecognised 4#3) := by decide
/-- T1.9, T1.10: not under the pattern. -/
theorem test_decode_foreign :
    decodeWord 0xFFFFFFFF#32 = .error (.notCustomOpcode 0xFFFFFFFF#32) ∧
      decodeWord 0x00000073#32 = .error (.notCustomOpcode 0x00000073#32) := by decide
/-- P1: the bytes of a word in memory order, and a list that is too short. -/
theorem test_decode_bytes :
    decode [0x7B#8, 0x93#8, 0x00#8, 0x00#8, 0xAA#8] = .ok (.xcount 6#5 1#5, [0xAA#8]) ∧
      decode [0x7B#8, 0x93#8, 0x00#8] = .error .tooShort := by decide
/-- R100: the canonical word; then the spelling of R99. -/
theorem test_encode :
    encode (.simprint 10#5 11#5 12#5) = 0x00C5857B#32 ∧ encodeFields 1#7 9#5 1#5 1#3 5#5 = 0x029092FB#32 := by decide
theorem test_assembly : assembly (.xcount 6#5 1#5) = "xcount x6, 1" := by rfl
/-- The table's match values, read by the host's function. -/
theorem test_decode_table :
    decodeTableWord 32 0x0000107B = some (.xcount 0#5 0#5) ∧ decodeTableWord 32 0x0000307B = some .finish := by decide

/-! ### One instruction -/

/-- T2.1. -/
theorem test_simprint_hi :
    nextIs (exec (.simprint 10#5 11#5 12#5) printing) (fun t =>
      t.out.log == [.print .info [0x48#7, 0x69#7] 42#32] && t.pc == 0x00001004#32 &&
        t.out.busReads == [0x00002010#32, 0x00002011#32, 0x00002012#32]) = true := by decide
/-- T2.5: bit 7 is masked, and a masked zero ends the text. -/
theorem test_simprint_mask :
    nextIs (exec (.simprint 10#5 11#5 12#5) (withData 0x10 [0xC1#8, 0xE2#8, 0x80#8, 0x43#8] printing)) (fun t =>
      t.out.log == [.print .info [0x41#7, 0x62#7] 42#32] && t.out.busReads.length == 3) = true := by decide
/-- T2.10: x5 takes the counter; the sample is the value before this instruction counts. -/
theorem test_xcount :
    nextIs (exec (.xcount 5#5 0#5) base) (fun t => readReg 5#5 t == 7#32 && readReg 6#5 t == 0#32 && t.out.log == []) = true := by
  decide
/-- T2.12. -/
theorem test_xcount_x0 : nextIs (exec (.xcount 0#5 1#5) base) (fun t => readReg 0#5 t == 0#32 && t.x == base.x) = true := by
  decide
/-- T2.13. -/
theorem test_badsel :
    nextIs (exec (.xcountBadsel 7#5 2#5) (withReg 7#5 0x1234#32 base)) (fun t =>
      readReg 7#5 t == 0x1234#32 && t.out.log == [.err (.badCountSelector 2#5)]) = true := by decide
/-- T2.15. -/
theorem test_hostreq :
    nextIs (exec .hostreq { base with enabled := 0b0001#4 }) (fun t =>
      t.mode == 1#2 && t.halted && t.pending == 0b0001#4 && line .hostReq t &&
        t.out.log == [.handshake .hostReq]) = true := by decide
/-- T2.19. -/
theorem test_hostreq_not_in_run :
    nextIs (exec .hostreq { base with mode := 3#2 }) (fun t =>
      t.mode == 1#2 && t.halted && t.out.log == [.err (.handshakeNotInRun .hostReq)]) = true := by decide
/-- T2.17. -/
theorem test_finish :
    nextIs (exec .finish { base with enabled := 0b1111#4, pending := 0b0001#4 }) (fun t =>
      t.mode == 3#2 && t.halted && lines t == 0b0011#4 && t.pc == 0x00001004#32) = true := by decide
/-- T2.23. -/
theorem test_unrecognised :
    nextIs (exec (.unrecognised 7#3) { base with enabled := 0b1111#4 }) (fun t =>
      t.out.log == [.err (.unknownFunct3 7#3)] && t.mode == 0#2 && !t.halted && lines t == 0#4) = true := by decide
/-- T2.4 in small: with no terminator the loop ends at its limit. -/
theorem test_text_limit :
    (match readText 3 0x00002010#32 (withData 0x10 [0x42#8, 0x42#8, 0x42#8, 0x42#8] base) with
      | .ok (text, t) => text == [0x42#7, 0x42#7, 0x42#7] && t.out.busReads.length == 3
      | .error _ => false) = true := by decide

/-! ### The other actions -/

/-- T4.13 with PC_START_SHIFT 0: reset, start PC, resume in one write. -/
theorem test_control_boot :
    nextIs (step (doing (.regWrite 0x0C#10 .word 0x00000040#32) held)) (fun t =>
      t.pc == 0x00001010#32 && !t.halted && t.mode == 0#2 && t.out.coreSignals == [.reset, .resume]) = true := by decide
/-- T4.5: resume from Freeze; the payload is not used. -/
theorem test_control_resume :
    nextIs (step (doing (.regWrite 0x0C#10 .word 0x00000040#32) { base with mode := 1#2, halted := true })) (fun t =>
      t.pc == 0x00001000#32 && !t.halted && t.out.coreSignals == [.resume]) = true := by decide
/-- T4.9 with PC_START_SHIFT 2. -/
theorem test_control_shift :
    startPC { plat with pcStartShift := .two } 0x10#17 = 0x00001040#32 := by decide
/-- T4.25. -/
theorem test_fault_after_hostreq :
    nextIs (step (doing (.faultReport .dataAccess) { base with mode := 1#2, halted := true, pending := 0b0001#4 })) (fun t =>
      t.mode == 3#2 && t.pending == 0b1001#4 && t.out.log == [.err (.handshakeNotInRun .dataFault)]) = true := by decide
/-- T6.2, T6.4, T6.7, T6.10, T6.11 (values read back). -/
theorem test_register_values :
    offsetValue 0x00#10 (offsetStore 0x00#10 0xFFFFFFF2#32 { base with pending := 0b0011#4 }) = 0x00000001#32 ∧
      offsetValue 0x04#10 (offsetStore 0x04#10 0xFFFFFFFF#32 base) = 0x0000000F#32 ∧
      offsetValue 0x0C#10 { base with mode := 3#2, pcStart := 0x10#17 } = 0x00000043#32 ∧
      offsetValue 0x18#10 (offsetStore 0x18#10 0xFFFFFFFF#32 base) = 0x007FFFFF#32 ∧
      offsetValue 0x1C#10 (offsetStore 0x1C#10 0xFF800123#32 base) = 0x00000123#32 := by decide
/-- T6.12 to T6.14: a word accepted. -/
theorem test_scrub_accepted :
    nextIs (step (doing (.regWrite 0x1C#10 .word 0x00400142#32) { held with initStart := 0x100#22 })) (fun t =>
      t.scrubQueue == [{ target := .imem, startAddress := 0x100#22, endAddress := 0x142#22 }] &&
        offsetValue 0x20#10 t == 0x00000001#32 && offsetValue 0x1C#10 t == 0x00000142#32 && t.imem == []) = true := by decide
/-- T5.1, T5.2, T5.5, T5.14, T5.17: aligned ranges. -/
theorem test_scrub_ranges :
    ([(.imem, 0x100#22, 0x142#22), (.dmem, 0x100#22, 0x142#22), (.imem, 0x103#22, 0x103#22),
        (.imem, 0x200#22, 0x100#22), (.imem, 0x3FFFFF#22, 0x3FFFFF#22)].map
      (fun p : MemTarget × BitVec 22 × BitVec 22 =>
        let r : ScrubRequest := { target := p.1, startAddress := p.2.1, endAddress := p.2.2 }
        (alignedStart r, alignedEnd r, pageCount r)))
    = [(0x100, 0x144, 17), (0x100, 0x180, 2), (0x100, 0x104, 1), (0x200, 0x100, 0), (0x3FFFFC, 0x400000, 1)] := by decide

/-- A request for the first two pages of instruction memory. -/
def twoPages : ScrubRequest := { target := .imem, startAddress := 1#22, endAddress := 5#22 }

/-- One request queued and a synchronisation point next. -/
def scrubbing (r : ScrubRequest) : State :=
  doing .syncPoint { held with scrubQueue := [r], initStatus := { pending := true, done := false } }

/-- The erase covers offsets 0 to 7 and stops there. -/
theorem test_scrub_completes :
    nextIs (step (scrubbing twoPages)) (fun t =>
      t.imem.read 0 == 0xA5#8 && t.imem.read 7 == 0xA5#8 && t.imem.read 8 == 0#8 && t.dmem == [] &&
        offsetValue 0x20#10 t == 0x00000002#32) = true := by decide

/-! ### Witnesses: the hypotheses of each statement, met together -/

/-- A string in data memory maps there. -/
theorem mapsToMemory_of {p : Config.Platform} {a : Word}
    (h : (match busTarget p a with | .memory _ _ => true | _ => false) = true) : mapsToMemory p a := by
  cases e : busTarget p a with
  | memory t off => exact ⟨t, off, e⟩
  | registerFile => rw [e] at h; cases h
  | other => rw [e] at h; cases h
  | nothing => rw [e] at h; cases h

theorem test_witness_DecodeOfEncodeIsIdentity :
    (Instr.xcountBadsel 31#5 2#5).wellFormed = true ∧ (Instr.unrecognised 4#3).wellFormed = true ∧
      (Instr.xcount 0#5 1#5).wellFormed = true := by decide

theorem test_witness_ExtractionIsShiftAndMask :
    (0xFFFFFFFF#32 : Word) &&& 0x01FFFF80#32 = 0x01FFFF80#32 &&& 0x01FFFF80#32 := by decide

theorem test_witness_PatternSelectsTheBlocksWords :
    (0x0000007B#32 : Word) &&& 0x7F#32 = 0x7B#32 ∧ (0x0000007A#32 : Word) &&& 0x7F#32 ≠ 0x7B#32 := by decide

theorem test_witness_DecodedWordMatchesItsTableRow :
    decodeWord 0x00C5857B#32 = .ok (.simprint 10#5 11#5 12#5) ∧ decodeWord 0x000090FB#32 = .ok (.xcount 1#5 1#5) ∧
      decodeWord 0x000110FB#32 = .ok (.xcountBadsel 1#5 2#5) ∧ decodeWord 0xFFFFA07B#32 = .ok .hostreq ∧
      decodeWord 0xFFFFBFFB#32 = .ok .finish ∧ decodeWord 0x0000407B#32 = .ok (.unrecognised 4#3) := by decide

theorem test_witness_UnusedBitsAreIgnored :
    matchesPattern 0x00C5857B#32 = true ∧ (0x00C5857B#32 : Word) &&& 0x01FFFFFF#32 = 0xFEC5857B#32 &&& 0x01FFFFFF#32 ∧
      matchesPattern 0x000012FB#32 = true ∧ (extract 0x000012FB#32).funct3 = 1#3 ∧
      (0x000012FB#32 : Word) &&& 0x000FFFFF#32 = 0xFFF012FB#32 &&& 0x000FFFFF#32 ∧
      matchesPattern 0x0000207B#32 = true ∧ 2 ≤ (extract 0x0000207B#32).funct3.toNat ∧
      (0x0000207B#32 : Word) &&& 0x0000707F#32 = 0xFFFFAFFB#32 &&& 0x0000707F#32 := by decide

theorem test_witness_SelectorIsTheRs1Field :
    [0x0000107B#32, 0x0000907B#32, 0x0001107B#32, 0x000F907B#32].all
      (fun w => matchesPattern w && w.extractLsb' 12 3 == 1#3) = true ∧
      ((0x0000907B#32 : Word).extractLsb' 15 5).toNat = 1 ∧ ((0x0001107B#32 : Word).extractLsb' 15 5).toNat = 2 := by decide

theorem test_witness_SelectorIsTheRs1Field_exec : ∃ t, exec (.xcount 5#5 0#5) base = .next t := ⟨_, rfl⟩

theorem test_witness_MalformedRequestsOnlyLog :
    decodeWord 0x0000407B#32 = .ok (.unrecognised 4#3) ∧ 4 ≤ ((0x0000407B#32 : Word).extractLsb' 12 3).toNat ∧
      decodeWord 0x0001107B#32 = .ok (.xcountBadsel 0#5 2#5) ∧ 2 ≤ ((0x0001107B#32 : Word).extractLsb' 15 5).toNat ∧
      decodeWord 0x0000057B#32 = .ok (.simprint 10#5 0#5 0#5) ∧
      4 < (readReg ((0x0000057B#32 : Word).extractLsb' 7 5) (withReg 10#5 5#32 base)).toNat := by decide

/-- `finish` at the pc, the core's turn next. -/
def atFinish : State := withCode 0 [0x7B#8, 0x30#8, 0x00#8, 0x00#8] base

theorem test_witness_StepRunsTheDecodedInstruction :
    nextTurn atFinish = some .core ∧ atFinish.halted = false ∧ fetchOffset atFinish.plat atFinish.pc = .ok 0 ∧
      decode [atFinish.imem.read 0, atFinish.imem.read 1, atFinish.imem.read 2, atFinish.imem.read 3]
        = .ok (.finish, []) := ⟨by decide, rfl, by decide, by decide⟩

/-- The last word of the window. -/
theorem test_witness_StepRunsAnEncodedInstruction :
    let s := withCode 0x1FC [0x7B#8, 0x30#8, 0x00#8, 0x00#8] { base with pc := 0x000011FC#32 }
    nextTurn s = some .core ∧ s.pc.toNat % 4 = 0 ∧ (s.pc - s.plat.imemBase).toNat + 4 ≤ s.plat.imemSize ∧
      ∀ k ∈ [0, 1, 2, 3], s.imem.read ((s.pc - s.plat.imemBase).toNat + k) = ((encode .finish) >>> (8 * k)).setWidth 8 := by
  decide

theorem test_witness_UnfetchableWordsAreRefused :
    nextTurn base = some .core ∧ (base.pc + 2#32).toNat % 4 ≠ 0 ∧
      plat.imemSize < ((0x00001200#32 : Word) - plat.imemBase).toNat + 4 ∧
      (0x00000013#32 : Word) &&& 0x7F#32 ≠ 0x7B#32 ∧
      ∀ k ∈ [0, 1, 2, 3], (withCode 0 [0x13#8] base).imem.read k = ((0x00000013#32 : Word) >>> (8 * k)).setWidth 8 := by
  decide

theorem test_witness_HaltedCoreExecutesNothing :
    held.halted = true ∧ ({ held with schedule := [.core] } : State).schedule = .core :: [] ∧ runEnded held ∧
      held.schedule = [] := by decide

theorem test_witness_PlacedWordIsExecutedNext :
    State.reset.imem.wf ∧ fetchOffset State.reset.plat State.reset.pc = .ok 0 ∧
      decodeTableWord 32 0x0000107B = some (.xcount 0#5 0#5) := by decide

theorem test_witness_SimprintRejectsLevelsAboveFour : 4 < (readReg 10#5 (withReg 10#5 5#32 base)).toNat := by decide

/-- T2.1: the text is "Hi". -/
theorem test_text_hi : textAt printing 0x00002010#32 = [0x48#7, 0x69#7] := by decide +kernel

theorem test_witness_SimprintPrintsTheStringInMemory :
    readReg 10#5 printing = levelOfSeverity .info ∧
      ∀ a ∈ addressesFrom (readReg 11#5 printing) (readsFor (textAt printing (readReg 11#5 printing))),
        mapsToMemory printing.plat a := by
  rw [show readReg 11#5 printing = 0x00002010#32 by decide, test_text_hi]
  refine ⟨by decide, fun a h => mapsToMemory_of ?_⟩
  simp only [show addressesFrom 0x00002010#32 (readsFor [0x48#7, 0x69#7]) = [0x00002010#32, 0x00002011#32, 0x00002012#32]
    by decide, List.mem_cons, List.not_mem_nil, or_false] at h
  rcases h with rfl | rfl | rfl <;> decide

/-- The 255 addresses from 0x3000 lie in the other window. -/
theorem answered_other {i : Nat} (h : i < 255) : answered plat (0x00003000#32 + BitVec.ofNat 32 i) := by
  have e : (0x00003000#32 + BitVec.ofNat 32 i).toNat = 0x3000 + i := by
    rw [BitVec.toNat_add, BitVec.toNat_ofNat, BitVec.toNat_ofNat]; omega
  have low (b : Word) (hb : b.toNat ≤ 0x3000) :
      windowOffset b (0x00003000#32 + BitVec.ofNat 32 i) = 0x3000 + i - b.toNat := by
    unfold windowOffset; rw [BitVec.toNat_sub, e]; omega
  have h1 : inWindow 0x80000000#32 0x400 (0x00003000#32 + BitVec.ofNat 32 i) = false := by
    unfold inWindow windowOffset; rw [BitVec.toNat_sub, e]; simp; omega
  have h2 : inWindow 0x1000#32 0x200 (0x00003000#32 + BitVec.ofNat 32 i) = false := by
    unfold inWindow; rw [low _ (by decide)]; simp; omega
  have h3 : inWindow 0x2000#32 0x200 (0x00003000#32 + BitVec.ofNat 32 i) = false := by
    unfold inWindow; rw [low _ (by decide)]; simp; omega
  have h4 : inWindow 0x3000#32 0x200 (0x00003000#32 + BitVec.ofNat 32 i) = true := by
    unfold inWindow; rw [low _ (by decide)]; simp; omega
  have : busTarget plat (0x00003000#32 + BitVec.ofNat 32 i) = .other := by
    simp [busTarget, plat, Config.regfileSpan, h1, h2, h3, h4]
  unfold answered; rw [this]; exact ⟨nofun, nofun⟩

theorem test_witness_SimprintCompletesWhereTheBusAnswers :
    (readReg 10#5 (withReg 10#5 4#32 (withReg 11#5 0x00003000#32 base))).toNat ≤ 4 ∧
      ∀ a ∈ addressesFrom (readReg 11#5 (withReg 10#5 4#32 (withReg 11#5 0x00003000#32 base))) 255, answered plat a := by
  rw [show readReg 11#5 (withReg 10#5 4#32 (withReg 11#5 0x00003000#32 base)) = 0x00003000#32 by decide]
  refine ⟨by decide, fun a h => ?_⟩
  obtain ⟨i, hi, rfl⟩ := List.mem_map.mp h
  exact answered_other (List.mem_range.mp hi)

theorem test_witness_SimprintStopsWhereTheBusHasNoAnswer :
    let s := withReg 11#5 0x000021FF#32 (withData 0x1FF [0x41#8] base)
    (readReg 10#5 s).toNat ≤ 4 ∧ mapsToMemory s.plat 0x000021FF#32 ∧ maskChar (byteAt s 0x000021FF#32) ≠ 0#7 ∧
      busTarget s.plat (readReg 11#5 s + BitVec.ofNat 32 1) = .nothing ∧
      busTarget s.plat (0x80000000#32 + BitVec.ofNat 32 0) = .registerFile :=
  ⟨by decide, mapsToMemory_of (by decide), by decide, by decide, by decide⟩

theorem test_witness_XcountReadsTheCounter : (0#5 : RegIdx).toNat ≤ 1 ∧ (1#5 : RegIdx).toNat ≤ 1 ∧ 32 ≤ plat.counterWidth := by
  decide

theorem test_witness_XcountRejectsOtherSelectors : 2 ≤ (2#5 : RegIdx).toNat ∧ 2 ≤ (31#5 : RegIdx).toNat := by decide

theorem test_witness_InstructionFrame :
    (∃ t, exec (.xcount 5#5 1#5) base = .next t) ∧ (∃ t, exec .hostreq base = .next t) ∧ (∃ t, exec .finish base = .next t) ∧
      (∃ t, exec (.unrecognised 5#3) base = .next t) ∧ (∃ t, exec (.xcountBadsel 5#5 9#5) base = .next t) ∧
      ∃ t, exec (.simprint 10#5 11#5 12#5) printing = .next t :=
  ⟨⟨_, rfl⟩, ⟨_, rfl⟩, ⟨_, rfl⟩, ⟨_, rfl⟩, ⟨_, rfl⟩, ⟨_, rfl⟩⟩

theorem test_witness_OnlyABusReadStopsAnInstruction :
    exec (.simprint 0#5 11#5 0#5) (withReg 11#5 0x00009000#32 base) = .refused (.busUnanswered 0x00009000#32) ∧
      exec (.simprint 0#5 11#5 0#5) (withReg 11#5 0x80000020#32 base) = .refused (.busReadOfRegisterFile 0x80000020#32) :=
  ⟨rfl, rfl⟩

theorem test_witness_RegisterZeroIsHardwired : (31#5 : RegIdx) ≠ 0#5 ∧ (1#5 : RegIdx) ≠ 31#5 := by decide

/-- T3.10. -/
theorem test_witness_LinesFollowEnabledAndPending :
    lines { base with enabled := 0b0101#4, pending := 0b0110#4 } = 0b0100#4 := by decide

theorem test_witness_RaiseSetsOnePendingBit :
    ({ base with pending := 0b1000#4 } : State).pending.getLsbD (sourceBit .dataFault) = true ∧
      ({ base with enabled := 0b0001#4 } : State).enabled.getLsbD (sourceBit .hostReq) = true := by decide

/-- The schedules of the register accesses, and the bit clauses. -/
theorem test_witness_IntrStateReadsAndClears :
    (doing (.regRead 0x00#10 .word) base).schedule = .env (.regRead 0x00#10 .word) :: [] ∧
      (doing (.regWrite 0x00#10 .word 8#32) base).schedule = .env (.regWrite 0x00#10 .word 8#32) :: [] ∧
      (8#32 : Word).getLsbD (sourceBit .dataFault) = true := by decide

theorem test_witness_IntrEnableReplacesAndReadsBack :
    (doing (.regWrite 0x04#10 .word 0xFFFFFFF0#32) base).schedule = .env (.regWrite 0x04#10 .word 0xFFFFFFF0#32) :: [] ∧
      (0xFFFFFFF0#32 : Word) &&& 0xF#32 = 0#32 ∧
      (doing (.regRead 0x04#10 .word) base).schedule = .env (.regRead 0x04#10 .word) :: [] := by decide

theorem test_witness_IntrTestInjectsPendingBits :
    (doing (.regWrite 0x08#10 .word 8#32) base).schedule = .env (.regWrite 0x08#10 .word 8#32) :: [] := by decide

/-- Each row kind of Table R167: halting, resetting, resuming, and none. -/
theorem test_witness_ControlWriteTransition :
    (doing (.regWrite 0x0C#10 .word 1#32) base).schedule = .env (.regWrite 0x0C#10 .word 1#32) :: [] ∧
      (base.mode = 0#2 ∧ (1#32 : Word).extractLsb' 0 2 ≠ 0#2) ∧
      (held.mode ≠ 0#2 ∧ (0x40#32 : Word).extractLsb' 0 2 = 0#2) ∧
      (held.mode.getLsbD 1 = true ∧ (0x40#32 : Word).getLsbD 1 = false) := by decide

theorem test_witness_StartPcIsAWrappingSum :
    plat.pcStartShift = .zero ∧ ({ plat with pcStartShift := .two } : Config.Platform).pcStartShift = .two ∧
      startPC { plat with imemBase := 0xFFFFFFF0#32 } 0x10#17 = 0#32 := by decide

theorem test_witness_FaultReportHaltsAndRaises :
    (doing (.faultReport .dataAccess) base).schedule = .env (.faultReport .dataAccess) :: [] ∧
      base.plat.faultInputWired = true ∧ State.reset.plat.faultInputWired = false := by decide

theorem test_witness_ControlWriteReturnsFromAHandshake :
    (∃ t u, exec .hostreq (doing (.regWrite 0x0C#10 .word 0#32) base) = .next t ∧
      t.schedule = .env (.regWrite 0x0C#10 .word 0#32) :: [] ∧ step t = .next u) ∧
    (∃ t u, exec .finish (doing (.regWrite 0x0C#10 .word 0x40#32) base) = .next t ∧
      t.schedule = .env (.regWrite 0x0C#10 .word 0x40#32) :: [] ∧ step t = .next u) :=
  ⟨⟨_, _, rfl, rfl, rfl⟩, ⟨_, _, rfl, rfl, rfl⟩⟩

/-- P4 and T4.13: payload 0x10 in one write or two. -/
theorem test_witness_BootByOneWriteOrTwo :
    held.mode = 3#2 ∧ held.halted = true ∧ held.schedule = [] ∧
      (0x40#32 : Word).extractLsb' 0 2 = 0#2 ∧ (0x40#32 : Word).extractLsb' 2 17 = 0x10#17 ∧
      (0x41#32 : Word).extractLsb' 0 2 = 1#2 ∧ (0x41#32 : Word).extractLsb' 2 17 = 0x10#17 ∧
      (0#32 : Word).extractLsb' 0 2 = 0#2 ∧ (0#32 : Word).extractLsb' 2 17 = 0#17 := by decide

theorem test_witness_InitEndWriteAcceptsARequest :
    (doing (.regWrite 0x1C#10 .word 0x00400142#32) held).schedule = .env (.regWrite 0x1C#10 .word 0x00400142#32) :: [] ∧
      (0x00400142#32 : Word).getLsbD 22 = true ∧ (0xFFBFFFFF#32 : Word).getLsbD 22 = false := by decide

/-- A range inside the memory, and an empty one. -/
theorem test_witness_CompletionErasesExactlyTheRange :
    (scrubbing twoPages).schedule = .env .syncPoint :: [] ∧ (scrubbing twoPages).scrubQueue = twoPages :: [] ∧
      held.imem.wf ∧ held.dmem.wf ∧ alignedEnd twoPages ≤ memSize plat twoPages.target ∧
      alignedEnd { twoPages with startAddress := 8#22 } ≤ alignedStart { twoPages with startAddress := 8#22 } := by decide

/-- T5.20 in small: the last page passes the extent; and T5.1 inside it. -/
theorem test_witness_ScrubBeyondTheExtentIsRefused :
    let r : ScrubRequest := { target := .imem, startAddress := 0x1FC#22, endAddress := 0x201#22 }
    (scrubbing r).schedule = .env .syncPoint :: [] ∧ (scrubbing r).scrubQueue = r :: [] ∧
      alignedStart r + 1 * pageSize r.target < alignedEnd r ∧
      memSize plat r.target < alignedStart r + (1 + 1) * pageSize r.target := by decide

/-- Two requests for the same pages; an offset inside their ranges and one outside both. -/
theorem test_witness_QueuedScrubsComplete :
    ({ held with scrubQueue := [twoPages, twoPages] } : State).schedule = [] ∧ [twoPages, twoPages] ≠ [] ∧
      (∀ r ∈ [twoPages, twoPages], beyondExtent plat r = false) ∧ held.imem.wf ∧ held.dmem.wf ∧
      (twoPages.target = .imem ∧ alignedStart twoPages ≤ 7 ∧ 7 < alignedEnd twoPages) ∧
      (∀ r ∈ [twoPages, twoPages], r.target = .imem → ¬ (alignedStart r ≤ 8 ∧ 8 < alignedEnd r)) := by decide

theorem test_witness_RegisterReadsAnswerTheirFields :
    (doing (.regRead 0x3FC#10 .word) base).schedule = .env (.regRead 0x3FC#10 .word) :: [] ∧
      (0x3FC#10 : BitVec 10).toNat % 4 = 0 ∧ 0x24 ≤ (0x24#10 : BitVec 10).toNat := by decide

/-- The writes at 0x10, 0x14 and 0x18, the boundaries of the offsets that ignore writes, and a pair of the list. -/
theorem test_witness_WrittenRegistersReadBack :
    (∀ off ∈ [0x10#10, 0x14#10, 0x18#10, 0x20#10, 0x24#10, 0x3FC#10],
      (doing (.regWrite off .word 1#32) base).schedule = .env (.regWrite off .word 1#32) :: []) ∧
      0x20 ≤ (0x20#10 : BitVec 10).toNat ∧ (0x20#10 : BitVec 10).toNat % 4 = 0 ∧
      0x24 ≤ (0x24#10 : BitVec 10).toNat ∧ (0x3FC#10 : BitVec 10).toNat % 4 = 0 ∧
      ((0x1C#10, 0x003FFFFF#32) : BitVec 10 × Word) ∈ [(0x04#10, 0x0000000F#32), (0x1C#10, 0x003FFFFF#32)] :=
  ⟨fun _ _ => rfl, by decide⟩

/-- T6.8: a write of MemoryBankControl on a running core stores the named bits and leaves pc and mode. -/
theorem test_bank_write :
    nextIs (step (doing (.regWrite 0x10#10 .word 0xFFFFFFFF#32) base)) (fun t =>
      offsetValue 0x10#10 t == 0x00000FFF#32 && t.pc == base.pc && t.mode == 0#2) = true := by decide

/-- InitEnd with Valid clear, an offset that is not InitEnd, and InitEnd with Valid set. -/
theorem test_witness_RepeatedWritesAreIdempotent :
    ((0x1C#10 : BitVec 10) = 0x1C#10 → (0x003FFFFF#32 : Word).getLsbD 22 = false) ∧
      ((0x18#10 : BitVec 10) = 0x1C#10 → (0x00400000#32 : Word).getLsbD 22 = false) ∧
      (0x1C#10 : BitVec 10).toNat % 4 = 0 ∧ (0x00400000#32 : Word).getLsbD 22 = true := by decide

/-- T6.18, and aligned words at the bottom and the top of the span. -/
theorem test_witness_OnlyAlignedWordsAreAccessed :
    (doing (.regRead 0x01#10 .byte) base).schedule = .env (.regRead 0x01#10 .byte) :: [] ∧
      (doing (.regWrite 0x02#10 .word 0#32) base).schedule = .env (.regWrite 0x02#10 .word 0#32) :: [] ∧
      (doing (.regRead 0x00#10 .word) base).schedule = .env (.regRead 0x00#10 .word) :: [] ∧
      (doing (.regWrite 0x3FC#10 .word 0#32) base).schedule = .env (.regWrite 0x3FC#10 .word 0#32) :: [] ∧
      ¬ (AccessWidth.byte = .word ∧ (0x01#10 : BitVec 10).toNat % 4 = 0) ∧
      ¬ (AccessWidth.word = .word ∧ (0x02#10 : BitVec 10).toNat % 4 = 0) ∧
      (AccessWidth.word = .word ∧ (0x00#10 : BitVec 10).toNat % 4 = 0) ∧
      (AccessWidth.word = .word ∧ (0x3FC#10 : BitVec 10).toNat % 4 = 0) := by decide

theorem test_witness_CounterCsrsAnswerTheCounter :
    base.halted = false ∧ (0xC00#12 : BitVec 12) = base.plat.csrCountA ∧ (0xC80#12 : BitVec 12) = base.plat.csrCountB ∧
      (doing (.csrRead 0xC00#12) base).schedule = .env (.csrRead 0xC00#12) :: [] ∧
      (doing (.csrWrite 0xC80#12 1#32) base).schedule = .env (.csrWrite 0xC80#12 1#32) :: [] := by decide

/-- A Control write that resets nothing. -/
theorem test_witness_CounterFallsOnlyAtAReset :
    (∃ t, step (doing (.regWrite 0x0C#10 .word 1#32) base) = .next t) ∧
      nextTurn (doing (.regWrite 0x0C#10 .word 1#32) base) ≠ some (.env .blockReset) ∧
      ∀ turn, nextTurn (doing (.regWrite 0x0C#10 .word 1#32) base) = some turn →
        ¬ resetsCore (doing (.regWrite 0x0C#10 .word 1#32) base) turn :=
  ⟨⟨_, rfl⟩, by decide, fun _ _ ⟨_, _, h, _⟩ => by cases h⟩

theorem test_witness_BlockResetRestoresBlockState : (doing .blockReset base).schedule = .env .blockReset :: [] := by decide

/-- Steps that answer a next state from states with the invariants: a core's dispatch, a Control write, an acceptance, a
completion, a load. -/
theorem test_witness_StepKeepsInvariants :
    (∃ t, step (doing (.regWrite 0x0C#10 .word 0#32) held) = .next t) ∧ Inv held ∧
      (∃ t, step atFinish = .next t) ∧ modeConsistent atFinish ∧ memoriesSound atFinish ∧
      (∃ t, step (scrubbing twoPages) = .next t) ∧ Inv (scrubbing twoPages) ∧
      (∃ t, step (doing (.load .dmem 0x1FF [0x41#8]) held) = .next t) :=
  ⟨⟨_, rfl⟩, by decide, ⟨_, rfl⟩, by decide, by decide, ⟨_, rfl⟩, by decide, ⟨_, rfl⟩⟩

/-- Each of the four causes of a change of mode. -/
theorem test_witness_OnlyTheModeControllerChangesMode :
    (∃ t, step atFinish = .next t ∧ t.mode ≠ atFinish.mode) ∧
      (∃ t, step (doing (.regWrite 0x0C#10 .word 1#32) base) = .next t ∧ t.mode ≠ base.mode) ∧
      (∃ t, step (doing (.faultReport .dataAccess) base) = .next t ∧ t.mode ≠ base.mode) ∧
      (∃ t, step (doing .blockReset base) = .next t ∧ t.mode ≠ base.mode) :=
  ⟨⟨_, rfl, by decide⟩, ⟨_, rfl, by decide⟩, ⟨_, rfl, by decide⟩, ⟨_, rfl, by decide⟩⟩

theorem test_witness_HaltedCoreWaitsForTheHost :
    (∃ t, step (doing (.regWrite 0x0C#10 .word 0#32) held) = .next t ∧ t.halted = false) ∧ held.halted = true ∧
      (∃ t, step (doing (.regWrite 0x04#10 .word 0#32) held) = .next t) ∧
      (∀ turn, nextTurn (doing (.regWrite 0x04#10 .word 0#32) held) = some turn →
        ¬ resetsCore (doing (.regWrite 0x04#10 .word 0#32) held) turn) :=
  ⟨⟨_, rfl, rfl⟩, rfl, ⟨_, rfl⟩, fun _ h ⟨_, h', _⟩ => by cases h; cases h'⟩

theorem test_witness_PendingBitsHaveNoOtherCause :
    (∃ t, step atFinish = .next t ∧ t.pending.getLsbD (sourceBit .finish) ≠ atFinish.pending.getLsbD (sourceBit .finish)) ∧
      (∃ t, step (doing (.regWrite 0x00#10 .word 8#32) { base with pending := 0b1000#4 }) = .next t ∧
        t.pending.getLsbD (sourceBit .dataFault) = false) ∧
      (∃ t, step (doing (.regWrite 0x08#10 .word 4#32) base) = .next t ∧
        t.pending.getLsbD (sourceBit .instructionFault) = true) :=
  ⟨⟨_, rfl, by decide⟩, ⟨_, rfl, by decide⟩, ⟨_, rfl, by decide⟩⟩

theorem test_witness_StoredRegistersHaveOneWriter :
    (∃ t, step (doing (.regWrite 0x0C#10 .word 4#32) held) = .next t ∧ t.pcStart ≠ held.pcStart) ∧
      (∃ t, step (doing (.regWrite 0x04#10 .word 1#32) held) = .next t ∧ t.enabled ≠ held.enabled) ∧
      (∃ t, step (doing (.regWrite 0x10#10 .word 1#32) held) = .next t ∧ t.memBankCtrl ≠ held.memBankCtrl) ∧
      (∃ t, step (doing (.regWrite 0x14#10 .word 1#32) held) = .next t ∧ t.errorStatus ≠ held.errorStatus) ∧
      (∃ t, step (doing (.regWrite 0x18#10 .word 1#32) held) = .next t ∧ t.initStart ≠ held.initStart) ∧
      (∃ t, step (doing (.regWrite 0x1C#10 .word 1#32) held) = .next t ∧ t.initEnd ≠ held.initEnd) :=
  ⟨⟨_, rfl, by decide⟩, ⟨_, rfl, by decide⟩, ⟨_, rfl, by decide⟩, ⟨_, rfl, by decide⟩, ⟨_, rfl, by decide⟩, ⟨_, rfl, by decide⟩⟩

theorem test_witness_MemoryHasNoOtherWriter :
    (∃ t, step (scrubbing twoPages) = .next t ∧ (memOf .imem t).read 7 ≠ (memOf .imem (scrubbing twoPages)).read 7) ∧
      (∃ t, step (doing (.load .dmem 0x1FF [0x41#8]) held) = .next t ∧ (memOf .dmem t).read 0x1FF ≠ (memOf .dmem held).read 0x1FF) :=
  ⟨⟨_, rfl, by decide⟩, ⟨_, rfl, by decide⟩⟩

/-- A load that ends at the extent, an offset inside it and one below it; and a load that passes the extent by one byte. -/
theorem test_witness_MemoryHasNoOtherWriter_load :
    (doing (.load .dmem 0x1FE [0x41#8, 0x42#8]) held).schedule = .env (.load .dmem 0x1FE [0x41#8, 0x42#8]) :: [] ∧
      0x1FE + [0x41#8, 0x42#8].length ≤ memSize held.plat .dmem ∧ (memOf .dmem held).wf ∧
      1 < [0x41#8, 0x42#8].length ∧ 0x1FD < 0x1FE ∧
      memSize held.plat .dmem < 0x1FF + [0x41#8, 0x42#8].length := by decide

theorem test_load :
    nextIs (step (doing (.load .dmem 0x1FE [0x41#8, 0x42#8]) held)) (fun t =>
      t.dmem.read 0x1FF == 0x42#8 && t.dmem.read 0x1FD == 0#8 && t.imem == []) = true := by decide

theorem test_witness_ProtectionBitsHaveNoEffect :
    (∀ turn, nextTurn atFinish = some turn → touchesProtection turn = false) ∧ (∃ t, step atFinish = .next t) ∧
      (∀ turn, nextTurn (doing (.regRead 0x01#10 .byte) base) = some turn → touchesProtection turn = false) ∧
      step (doing (.regRead 0x01#10 .byte) base) = .refused (.accessNotWord 0x01#10) :=
  ⟨fun _ h => by cases h; rfl, ⟨_, rfl⟩, fun _ h => by cases h; rfl, rfl⟩

/-! ### The host's two functions -/

/-- After reset a placed `hostreq` is what the very next step runs. -/
theorem test_placed_word :
    nextIs (step (State.reset.withFetchWord 32 0x0000207B)) (fun t =>
      t.mode == 1#2 && t.pending == 0b0001#4 && t.pc == 0x00000004#32) = true := by decide

end Sys2Proof.Tests
end

/-!
SUPPORT. The core's fetch: what the low bits of the pc and of a word say, how the bytes of a word decode, and the step that
ends in a refused fetch.
-/
namespace Sys2Proof

/-- The low two bits of a word are zero exactly when it is a multiple of 4. -/
theorem lowTwoBits_eq_zero_iff (w : Word) : w.extractLsb' 0 2 = 0#2 ↔ w.toNat % 4 = 0 := by
  rw [← BitVec.toNat_inj]
  simp

/-- R91 as a mask and a match: the block's words are those whose low seven bits are 0x7B. -/
theorem matchesPattern_iff (w : Word) : matchesPattern w = true ↔ w &&& 0x7F#32 = 0x7B#32 := by
  have low : (w &&& 0x7F#32).toNat = (w.extractLsb' 0 7).toNat := by
    simpa using Nat.and_two_pow_sub_one_eq_mod w.toNat 7
  rw [matchesPattern, beq_iff_eq, ← BitVec.toNat_inj, ← BitVec.toNat_inj, low]
  rfl

/-- A word without the block's opcode is the core's own (R91). -/
theorem decodeWord_of_not_matchesPattern {w : Word} (h : matchesPattern w = false) :
    decodeWord w = .error (.notCustomOpcode w) := by
  simp [decodeWord, h]

/-- The bytes of a word, lowest address first, make that word again (D25). -/
theorem wordOfBytes_extract (w : Word) :
    wordOfBytes (w.extractLsb' 0 8) (w.extractLsb' 8 8) (w.extractLsb' 16 8) (w.extractLsb' 24 8) = w := by
  simp only [wordOfBytes, BitVec.extractLsb'_append_extractLsb'_eq_extractLsb']
  simp

/-- The decoder reads a word from its bytes and leaves the rest. -/
theorem decode_bytesOfWord_append (w : Word) (rest : List Byte) :
    decode (bytesOfWord w ++ rest) = (decodeWord w).map (fun i => (i, rest)) := by
  simp only [bytesOfWord, List.cons_append, List.nil_append, decode, wordOfBytes_extract]
  cases decodeWord w <;> rfl

end Sys2Proof

namespace Sys2Proof.Machine

/-! ### The offset of a fetch (log 9) -/

theorem fetchOffset_of_misaligned {pc : Word} (p : Config.Platform) (h : pc.toNat % 4 ≠ 0) :
    fetchOffset p pc = .error (.fetchMisaligned pc) :=
  if_pos (mt (lowTwoBits_eq_zero_iff pc).mp h)

theorem fetchOffset_of_aligned {pc : Word} (p : Config.Platform) (h : pc.toNat % 4 = 0) :
    fetchOffset p pc =
      if windowOffset p.imemBase pc + 4 ≤ p.imemSize then .ok (windowOffset p.imemBase pc)
      else .error (.fetchOutsideImem pc) :=
  if_neg (not_not.mpr ((lowTwoBits_eq_zero_iff pc).mpr h))

/-! ### The fetch -/

theorem fetch_of_fetchOffset_error {s : State} {r : Refusal} (h : fetchOffset s.plat s.pc = .error r) :
    fetch s = .error r := by
  simp only [fetch, h]

/-- Instruction memory that holds a word byte by byte shows the word's bytes to the fetch. -/
theorem fetchBytes_eq_bytesOfWord {s : State} {off : Nat} {w : Word}
    (h : ∀ k, k < 4 → s.imem.read (off + k) = (w >>> (8 * k)).setWidth 8) :
    fetchBytes off s = bytesOfWord w := by
  simp only [BitVec.setWidth_ushiftRight_eq_extractLsb] at h
  simpa [fetchBytes, bytesOfWord] using
    (⟨h 0 (by decide), h 1 (by decide), h 2 (by decide), h 3 (by decide)⟩ : _ ∧ _ ∧ _ ∧ _)

/-- A fetched word without the block's opcode is refused as the core's own instruction (R3, R91). -/
theorem fetch_of_core_word {s : State} {off : Nat} {w : Word} (ho : fetchOffset s.plat s.pc = .ok off)
    (hb : fetchBytes off s = bytesOfWord w) (hw : matchesPattern w = false) :
    fetch s = .error (.coreOwnInstruction w) := by
  have hd : decode (fetchBytes off s) = .error (.notCustomOpcode w) := by
    simpa [hb, decodeWord_of_not_matchesPattern hw, Except.map] using decode_bytesOfWord_append w []
  simp only [fetch, ho, hd]

/-- On the core's turn the step is `coreTurn`, with the turn taken off the schedule. -/
theorem step_eq_coreTurn {s : State} (h : nextTurn s = some .core) : step s = coreTurn (popTurn s) := by
  simp only [step, h, takeTurn]

/-- On the turn of a core that is not halted a refused fetch refuses the step. -/
theorem step_refused_of_fetch_error {s : State} {r : Refusal} (hn : nextTurn s = some .core) (hh : s.halted = false)
    (hf : fetch s = .error r) : step s = .refused r := by
  have hf' : fetch (popTurn s) = .error r := hf
  simp [step_eq_coreTurn hn, coreTurn, hh, hf']

end Sys2Proof.Machine

/-!
SUPPORT. Where an instruction stops: at a byte read of the text loop that the bus refuses.
-/
namespace Sys2Proof.Machine

/-- A bus read changes no parameter, so the bus map stays as it was. -/
theorem busRead_plat {a : Word} {s s' : State} {b : Byte} (h : busRead a s = .ok (b, s')) : s'.plat = s.plat := by
  obtain ⟨-, hs', -⟩ := busRead_ok h
  rw [hs']

/-- A refused text loop was refused by the bus at one of its `n` ascending addresses (R63, D15). -/
theorem readText_error {n : Nat} : ∀ {ptr : Word} {s : State} {r : Refusal}, readText n ptr s = .error r →
    ∃ k s', k < n ∧ s'.plat = s.plat ∧ busRead (ptr + BitVec.ofNat 32 k) s' = .error r := by
  induction n with
  | zero => intro ptr s r h; cases h
  | succ n ih =>
    intro ptr s r h
    simp only [readText] at h
    cases hb : busRead ptr s with
    | error e =>
      simp only [hb] at h
      cases h
      exact ⟨0, s, n.succ_pos, rfl, by simpa using hb⟩
    | ok p =>
      obtain ⟨b, s₁⟩ := p
      simp only [hb] at h
      split at h
      · cases h
      · cases ht : readText n (ptr + 1#32) s₁ with
        | ok q => simp [ht] at h
        | error e =>
          simp only [ht] at h
          cases h
          obtain ⟨k, s', hk, hplat, hr⟩ := ih ht
          have addr : ptr + 1#32 + BitVec.ofNat 32 k = ptr + BitVec.ofNat 32 (k + 1) := by
            rw [BitVec.add_assoc, BitVec.ofNat_add, BitVec.add_comm 1#32]
          exact ⟨k + 1, s', Nat.succ_lt_succ hk, hplat.trans (busRead_plat hb), addr ▸ hr⟩

/-- An instruction is refused only by the text loop of `simprint` (R10, R136). -/
theorem exec_refused {i : Instr} {s : State} {r : Refusal} (h : exec i s = .refused r) :
    ∃ rd rs1 rs2, i = .simprint rd rs1 rs2 ∧ readText Config.simprintMax (readReg rs1 s) s = .error r := by
  cases i with
  | simprint rd rs1 rs2 =>
    simp only [exec, execSimprint] at h
    split at h
    · cases h
    · cases ht : readText Config.simprintMax (readReg rs1 s) s with
      | ok p => simp [ht] at h
      | error e => simp only [ht] at h; cases h; exact ⟨rd, rs1, rs2, rfl, ht⟩
  | xcount rd sel => cases h
  | xcountBadsel rd sel => cases h
  | hostreq => cases h
  | finish => cases h
  | unrecognised f => cases h

end Sys2Proof.Machine

/-!
SUPPORT. The statements of 00_scope.md: the stops of the core's fetch and of the instructions.
-/
namespace Sys2Proof.Proofs

open Sys2Proof.Machine

/-- Settles O12: each clause fixes what the fetch answers, and a refused fetch refuses the step. -/
theorem unfetchableWordsAreRefused : Obligations.UnfetchableWordsAreRefused := by
  unfold Obligations.UnfetchableWordsAreRefused
  intro s hn hh
  refine ⟨fun hpc => ?_, fun hpc hout => ?_, fun hpc hin w hw hbytes => ?_⟩ <;>
    apply step_refused_of_fetch_error hn hh
  · exact fetch_of_fetchOffset_error (fetchOffset_of_misaligned s.plat hpc)
  · apply fetch_of_fetchOffset_error
    rw [fetchOffset_of_aligned s.plat hpc]
    exact if_neg (Nat.not_le.mpr hout)
  · have ho : fetchOffset s.plat s.pc = .ok (windowOffset s.plat.imemBase s.pc) := by
      rw [fetchOffset_of_aligned s.plat hpc]
      exact if_pos hin
    have hcore : matchesPattern w = false := by
      rw [Bool.eq_false_iff]
      exact mt (matchesPattern_iff w).mp hw
    exact fetch_of_core_word ho (fetchBytes_eq_bytesOfWord hbytes) hcore

/-- Settles O25: a refused instruction is a `simprint` whose text loop met a refused bus read, under the same bus map. -/
theorem onlyABusReadStopsAnInstruction : Obligations.OnlyABusReadStopsAnInstruction := by
  unfold Obligations.OnlyABusReadStopsAnInstruction
  intro i s r h
  obtain ⟨rd, rs1, rs2, hi, ht⟩ := exec_refused h
  obtain ⟨k, s', hk, hplat, hr⟩ := readText_error ht
  exact ⟨rd, rs1, rs2, k, hi, hk, hplat ▸ busRead_error hr⟩

end Sys2Proof.Proofs

/-!
SUPPORT. What one step can do, said once: the laws of a register write, and the effects a step can have.
-/
namespace Sys2Proof.Machine

/-! ### The Control write, field by field -/

section

variable (v : Word) (s : State)

@[simp] theorem controlWrite_plat : (controlWrite v s).plat = s.plat := by rw [controlWrite_frame]
@[simp] theorem controlWrite_mode : (controlWrite v s).mode = controlMode v := by rw [controlWrite_frame]
@[simp] theorem controlWrite_enabled : (controlWrite v s).enabled = s.enabled := by rw [controlWrite_frame]
@[simp] theorem controlWrite_memBankCtrl : (controlWrite v s).memBankCtrl = s.memBankCtrl := by rw [controlWrite_frame]
@[simp] theorem controlWrite_errorStatus : (controlWrite v s).errorStatus = s.errorStatus := by rw [controlWrite_frame]
@[simp] theorem controlWrite_initStart : (controlWrite v s).initStart = s.initStart := by rw [controlWrite_frame]
@[simp] theorem controlWrite_initSel : (controlWrite v s).initSel = s.initSel := by rw [controlWrite_frame]
@[simp] theorem controlWrite_initEnd : (controlWrite v s).initEnd = s.initEnd := by rw [controlWrite_frame]
@[simp] theorem controlWrite_initStatus : (controlWrite v s).initStatus = s.initStatus := by rw [controlWrite_frame]
@[simp] theorem controlWrite_scrubQueue : (controlWrite v s).scrubQueue = s.scrubQueue := by rw [controlWrite_frame]
@[simp] theorem controlWrite_imem : (controlWrite v s).imem = s.imem := by rw [controlWrite_frame]
@[simp] theorem controlWrite_dmem : (controlWrite v s).dmem = s.dmem := by rw [controlWrite_frame]

end

/-- The SoftwareReset flag of a Control word is its bit 1 (D2). -/
theorem softwareResetFlag_controlMode (v : Word) : softwareResetFlag (controlMode v) = v.getLsbD 1 := by
  simp [softwareResetFlag, controlMode]

/-! ### A register write -/

/-- The write of InitEnd latches the address and, with Valid, queues a request and shows Pending (R208, R180). -/
theorem writeInitEnd_frame (v : Word) (s : State) :
    writeInitEnd v s = { s with
      initEnd := v.extractLsb' 0 22
      initStatus := (writeInitEnd v s).initStatus
      scrubQueue := (writeInitEnd v s).scrubQueue } := by
  unfold writeInitEnd
  split <;> rfl

/-- A write of any register but Control leaves the mode, the payload and the core alone. -/
theorem regStore_frame_of_ne_control {r : CtrlReg} (h : r ≠ .control) (v : Word) (s : State) :
    regStore r v s = { s with
      enabled := (regStore r v s).enabled
      pending := (regStore r v s).pending
      memBankCtrl := (regStore r v s).memBankCtrl
      errorStatus := (regStore r v s).errorStatus
      initStart := (regStore r v s).initStart
      initSel := (regStore r v s).initSel
      initEnd := (regStore r v s).initEnd
      initStatus := (regStore r v s).initStatus
      scrubQueue := (regStore r v s).scrubQueue } := by
  cases r with
  | control => exact absurd rfl h
  | initEnd => simp only [regStore]; rw [writeInitEnd_frame]
  | _ => rfl

/-- The status and the queue move at a register write only by an acceptance, which shows Pending over a queue that is not empty. -/
theorem regStore_scrub (r : CtrlReg) (v : Word) (s : State) :
    ((regStore r v s).initStatus = s.initStatus ∧ (regStore r v s).scrubQueue = s.scrubQueue) ∨
      ((regStore r v s).initStatus = { pending := true, done := false } ∧ (regStore r v s).scrubQueue ≠ []) := by
  cases r with
  | initEnd =>
    simp only [regStore, writeInitEnd]
    split
    · exact .inr (by simp)
    · exact .inl ⟨rfl, rfl⟩
  | control => exact .inl (by simp [regStore])
  | _ => exact .inl ⟨rfl, rfl⟩

section

variable (r : CtrlReg) (v : Word) (s : State)

@[simp] theorem regStore_plat : (regStore r v s).plat = s.plat := by
  by_cases h : r = .control
  · subst h; exact controlWrite_plat v s
  · rw [regStore_frame_of_ne_control h]

@[simp] theorem regStore_imem : (regStore r v s).imem = s.imem := by
  by_cases h : r = .control
  · subst h; exact controlWrite_imem v s
  · rw [regStore_frame_of_ne_control h]

@[simp] theorem regStore_dmem : (regStore r v s).dmem = s.dmem := by
  by_cases h : r = .control
  · subst h; exact controlWrite_dmem v s
  · rw [regStore_frame_of_ne_control h]

end

section

variable {r : CtrlReg} {v : Word} {s : State}

theorem regStore_mode (h : r ≠ .control) : (regStore r v s).mode = s.mode := by
  rw [regStore_frame_of_ne_control h]

theorem regStore_halted (h : r ≠ .control) : (regStore r v s).halted = s.halted := by
  rw [regStore_frame_of_ne_control h]

theorem regStore_instret (h : r ≠ .control) : (regStore r v s).instret = s.instret := by
  rw [regStore_frame_of_ne_control h]

end

/-- Each stored register is written by the write of its own offset alone (R22, R23, R26 to R29). -/
theorem regStore_writes_only_its_own (r : CtrlReg) (v : Word) (s : State) :
    (r ≠ .control → (regStore r v s).pcStart = s.pcStart) ∧
      (r ≠ .intrEnable → (regStore r v s).enabled = s.enabled) ∧
      (r ≠ .memoryBankControl → (regStore r v s).memBankCtrl = s.memBankCtrl) ∧
      (r ≠ .errorStatus → (regStore r v s).errorStatus = s.errorStatus) ∧
      (r ≠ .initStart → (regStore r v s).initStart = s.initStart ∧ (regStore r v s).initSel = s.initSel) ∧
      (r ≠ .initEnd → (regStore r v s).initEnd = s.initEnd) := by
  cases r with
  | control => simp [regStore]
  | initEnd => simp only [regStore]; rw [writeInitEnd_frame]; simp
  | _ => simp [regStore, writePendingClear, writeEnable, writeTestSet]

/-- A register stands at an offset only if the offset is its own. -/
theorem eq_regOffset_of_regAt {off : BitVec 10} {r : CtrlReg} (h : regAt off = some r) : off = regOffset r :=
  by
  simpa using (beq_iff_eq.mp (List.find?_some (p := fun r => regOffset r == off) h)).symm

/-! ### The effects of a step -/

/-- What a step that answers a next state does to the state, by cause. -/
inductive StepEffect (s : State) : State → Prop where
  /-- At most a turn leaves the schedule and a reply is sent. -/
  | idle (q : List Turn) (out : Outputs) : StepEffect s { s with schedule := q, out := out }
  /-- A core that is not halted executes an instruction without a handshake, or accesses a counter CSR. -/
  | run (running : s.halted = false) (q : List Turn) (x : Vector Word 32) (pc : Word) (n : Nat) (out : Outputs) (tick : Nat)
      (le : s.instret ≤ n) :
      StepEffect s { s with schedule := q, x := x, pc := pc, instret := n, out := out, tick := tick }
  /-- A core that is not halted executes `hostreq`. -/
  | hostreq (turn : nextTurn s = some .core) (running : s.halted = false) (fetched : fetch s = .ok .hostreq) :
      StepEffect s (retire (handshake .hostReq modeFreeze (popTurn s)))
  /-- A core that is not halted executes `finish`. -/
  | finish (turn : nextTurn s = some .core) (running : s.halted = false) (fetched : fetch s = .ok .finish) :
      StepEffect s (retire (handshake .finish modeFreezeReset (popTurn s)))
  /-- The platform reports a fault on the wired input. -/
  | fault (kind : FaultKind) (turn : nextTurn s = some (.env (.faultReport kind))) (wired : s.plat.faultInputWired = true) :
      StepEffect s (handshake (faultSource kind) modeFreezeReset (popTurn s))
  /-- The bus writes a word to a register. -/
  | store (r : CtrlReg) (v : Word) (turn : nextTurn s = some (.env (.regWrite (regOffset r) .word v))) :
      StepEffect s (regStore r v (popTurn s))
  /-- The oldest scrub request, inside the extent of its memory, is completed. -/
  | scrub (r : ScrubRequest) (rest : List ScrubRequest) (turn : nextTurn s = some (.env .syncPoint))
      (queued : s.scrubQueue = r :: rest) (inside : beyondExtent s.plat r = false) :
      StepEffect s
        (closeRequest rest (setMem r.target (eraseMemory s.plat.eraseByte r (memOf r.target s)) (popTurn s)))
  /-- The platform resets the block. -/
  | blockReset (turn : nextTurn s = some (.env .blockReset)) : StepEffect s (blockReset (popTurn s))
  /-- The platform loads bytes inside the extent of a memory. -/
  | load (m : MemTarget) (off : Nat) (bs : List Byte) (turn : nextTurn s = some (.env (.load m off bs)))
      (inside : off + bs.length ≤ memSize s.plat m) :
      StepEffect s (setMem m ((memOf m s).store off bs) (popTurn s))

/-- The counter moves on after a change of registers, pc, outputs and free values alone: an effect of the running core. -/
theorem StepEffect.of_advanceCounter {s u : State} (running : s.halted = false)
    (h : u = { popTurn s with x := u.x, pc := u.pc, out := u.out, tick := u.tick }) : StepEffect s (advanceCounter u) := by
  rw [h]
  exact .run running _ _ _ _ _ _ (Nat.le_add_right _ _)

/-- So is the end of a dispatch. -/
theorem StepEffect.of_retire {s u : State} (running : s.halted = false)
    (h : u = { popTurn s with x := u.x, out := u.out, tick := u.tick }) : StepEffect s (retire u) := by
  rw [h]
  exact .of_advanceCounter running rfl

/-- The core's turn is idle, runs, or makes a handshake. -/
theorem stepEffect_of_coreTurn {s t : State} (hn : nextTurn s = some .core) (h : coreTurn (popTurn s) = .next t) :
    StepEffect s t := by
  rcases coreTurn_next h with ⟨-, rfl⟩ | ⟨i, hh, hf, he⟩
  · exact .idle _ _
  rcases exec_next he with ⟨e, rfl⟩ | ⟨rd, rs1, rs2, sev, text, s', -, ht, rfl⟩ | ⟨rd, sel, -, -, rfl⟩ | ⟨rfl, rfl⟩ |
    ⟨rfl, rfl⟩
  · exact .of_retire hh rfl
  · obtain ⟨-, -, hs'⟩ := readText_ok ht
    refine .of_retire hh ?_
    rw [hs']
    rfl
  · refine .of_retire hh ?_
    unfold writeReg
    split <;> rfl
  · exact .hostreq hn hh hf
  · exact .finish hn hh hf

/-- An access to a counter CSR is idle on a halted core, and otherwise moves the counter. -/
theorem stepEffect_of_counterRead {s t : State} {csr : BitVec 12} (h : counterRead csr (popTurn s) = .next t) :
    StepEffect s t := by
  unfold counterRead at h
  split at h
  · cases h; exact .idle _ _
  · next hh =>
    split at h
    · cases h; exact .of_advanceCounter (Bool.eq_false_iff.mpr hh) rfl
    · cases h

/-- So is a write to one. -/
theorem stepEffect_of_counterWrite {s t : State} {csr : BitVec 12} {v : Word}
    (h : counterWrite csr v (popTurn s) = .next t) : StepEffect s t := by
  unfold counterWrite at h
  split at h
  · cases h; exact .idle _ _
  · next hh =>
    split at h
    · cases h; exact .of_advanceCounter (Bool.eq_false_iff.mpr hh) rfl
    · cases h

/-- A write access stores into the register at its offset, or does nothing where there is none. -/
theorem stepEffect_of_busWriteAccess {s t : State} {off : BitVec 10} {width : AccessWidth} {v : Word}
    (hn : nextTurn s = some (.env (.regWrite off width v))) (h : busWriteAccess off width v (popTurn s) = .next t) :
    StepEffect s t := by
  unfold busWriteAccess at h
  split at h
  · next hw =>
    cases h
    obtain ⟨rfl, -⟩ := (wordAccess_iff off width).mp hw
    unfold offsetStore
    cases hr : regAt off with
    | none => exact .idle _ _
    | some r => exact .store r v (eq_regOffset_of_regAt hr ▸ hn)
  · cases h

/-- The action of another agent has the effect of its own kind. -/
theorem stepEffect_of_perform {s t : State} {a : EnvAction} (hn : nextTurn s = some (.env a))
    (h : perform a (popTurn s) = .next t) : StepEffect s t := by
  cases a with
  | regRead off width =>
    simp only [perform, busReadAccess] at h
    split at h
    · cases h; exact .idle _ _
    · cases h
  | regWrite off width v => exact stepEffect_of_busWriteAccess hn h
  | faultReport kind =>
    simp only [perform, faultInput] at h
    split at h
    · next hw => cases h; exact .fault kind hn hw
    · cases h; exact .idle _ _
  | syncPoint =>
    rcases completeScrub_next h with ⟨-, rfl⟩ | ⟨r, rest, hq, hb, rfl⟩
    · exact .idle _ _
    · exact .scrub r rest hn hq hb
  | csrRead csr => exact stepEffect_of_counterRead h
  | csrWrite csr v => exact stepEffect_of_counterWrite (v := v) h
  | blockReset => cases h; exact .blockReset hn
  | load m off bs =>
    simp only [perform, loadBytes] at h
    split at h
    · next hi => cases h; exact .load m off bs hn hi
    · cases h

/-- A step that answers a next state has one of the effects. -/
theorem stepEffect_of_step {s t : State} (h : step s = .next t) : StepEffect s t := by
  rcases step_next h with ⟨-, rfl⟩ | ⟨hn, hc⟩ | ⟨a, hn, hp⟩
  · exact .idle _ _
  · exact stepEffect_of_coreTurn hn hc
  · exact stepEffect_of_perform hn hp

end Sys2Proof.Machine

/-!
SUPPORT. What the operations keep: the extent of the memories, the mode with the halted flag, the scrub status with its queue,
and the other registers.
-/
namespace Sys2Proof.Machine

open Sys2Proof.Safety

/-- An empty aligned range erases no page. -/
theorem pageCount_of_le {r : ScrubRequest} (h : alignedEnd r ≤ alignedStart r) : pageCount r = 0 := by
  simp [pageCount, Nat.sub_eq_zero_of_le h]

/-- An erase that does not pass the extent keeps every cell inside it. -/
theorem eraseMemory_within {p : Config.Platform} {r : ScrubRequest} (inside : beyondExtent p r = false) (b : Byte)
    {m : Memory} (h : m.within (memSize p r.target)) : (eraseMemory b r m).within (memSize p r.target) := by
  unfold eraseMemory
  by_cases hlt : alignedStart r < alignedEnd r
  · have hend : alignedEnd r ≤ memSize p r.target := by simpa [beyondExtent, hlt] using inside
    refine erasePages_within _ _ _ _ h ?_
    rw [pageCount_mul]
    omega
  · rw [pageCount_of_le (Nat.le_of_not_lt hlt)]
    exact h

/-- The memory named depends on the two memories alone. -/
theorem memOf_congr {s t : State} (hi : t.imem = s.imem) (hd : t.dmem = s.dmem) (m : MemTarget) :
    memOf m t = memOf m s := by
  cases m
  · exact hi
  · exact hd

theorem memoriesSound_congr {s t : State} (hp : t.plat = s.plat) (hi : t.imem = s.imem) (hd : t.dmem = s.dmem)
    (h : memoriesSound s) : memoriesSound t := by
  unfold memoriesSound
  rwa [hp, hi, hd]

theorem wf_memOf {s : State} (h : memoriesSound s) (m : MemTarget) : (memOf m s).wf := by
  obtain ⟨hi, hd, -, -⟩ := h
  cases m
  · exact hi
  · exact hd

theorem within_memOf {s : State} (h : memoriesSound s) (m : MemTarget) : (memOf m s).within (memSize s.plat m) := by
  obtain ⟨-, -, hi, hd⟩ := h
  cases m
  · exact hi
  · exact hd

/-- Replacing one memory by a canonical one inside the same extent keeps both sound. -/
theorem memoriesSound_setMem {s : State} {m : MemTarget} {mem : Memory} (h : memoriesSound s) (hw : mem.wf)
    (hin : mem.within (memSize s.plat m)) : memoriesSound (setMem m mem s) := by
  obtain ⟨hwi, hwd, hii, hid⟩ := h
  cases m
  · exact ⟨hw, hwd, hin, hid⟩
  · exact ⟨hwi, hw, hii, hin⟩

/-- A reset of the block leaves both memories sound, whatever they hold (log 5). -/
theorem blockReset_memoriesSound (s : State) : memoriesSound (blockReset s) :=
  ⟨Memory.ofCells_wf _ _, Memory.ofCells_wf _ _, Memory.ofCells_within _ _, Memory.ofCells_within _ _⟩

/-! ### The platform's loading (log 33) -/

/-- A scheduled load inside the extent stores its bytes in the named memory; beyond it the load is refused. -/
theorem step_load {s : State} {m : MemTarget} {off : Nat} {bs : List Byte} {rest : List Turn}
    (h : s.schedule = .env (.load m off bs) :: rest) :
    step s = if off + bs.length ≤ memSize s.plat m then
      .next (setMem m ((memOf m s).store off bs) { s with schedule := rest })
    else .refused (.loadBeyondExtent m off) := by
  rw [step_env h]
  cases m <;> rfl

/-- Inside a stored list each byte reads at its own offset. -/
theorem read_store_inside {m : Memory} (h : m.wf) {off k : Nat} {bs : List Byte} (hk : k < bs.length) :
    (m.store off bs).read (off + k) = bs[k] := by
  rw [Memory.read_store _ _ _ _ h]
  simp [hk]

/-- Outside a stored list every byte reads as before. -/
theorem read_store_outside {m : Memory} (h : m.wf) {off a : Nat} {bs : List Byte} (ha : a < off ∨ off + bs.length ≤ a) :
    (m.store off bs).read a = m.read a := by
  rw [Memory.read_store _ _ _ _ h]
  split
  · rw [List.getElem?_eq_none (by omega)]
    rfl
  · rfl

/-! ### Registers -/

theorem readReg_writeReg_same {i : RegIdx} (h : i ≠ 0#5) (v : Word) (s : State) : readReg i (writeReg i v s) = v := by
  simp [readReg_of_ne h, writeReg_of_ne h]

/-- A write to one register leaves every other as it reads, register 0 included. -/
theorem readReg_writeReg_ne {i j : RegIdx} (h : j ≠ i) (v : Word) (s : State) :
    readReg j (writeReg i v s) = readReg j s := by
  by_cases hi : i = 0#5
  · rw [hi, writeReg_zero]
  by_cases hj : j = 0#5
  · rw [hj, readReg_zero, readReg_zero]
  have hne : i.toNat ≠ j.toNat := fun e => h (BitVec.eq_of_toNat_eq e.symm)
  simp [readReg_of_ne hj, writeReg_of_ne hi, Vector.getElem_set_ne, hne]

/-! ### The mode and the halted flag -/

theorem modeInvariants_congr {s t : State} (hm : t.mode = s.mode) (hh : t.halted = s.halted) :
    (modeHalts s → modeHalts t) ∧ (modeConsistent s → modeConsistent t) := by
  unfold modeHalts modeConsistent
  rw [hm, hh]
  exact ⟨id, id⟩

/-- A halted core under a mode that is not Run meets both mode invariants. -/
theorem modeInvariants_of_halted {s t : State} {m : BitVec 2} (hm : t.mode = m) (hne : m ≠ modeRun)
    (hh : t.halted = true) : (modeHalts s → modeHalts t) ∧ (modeConsistent s → modeConsistent t) := by
  subst hm
  exact ⟨fun _ _ => hh, fun _ => iff_of_true hh hne⟩

/-- The Control write keeps both mode invariants: it halts on leaving Run, releases on entering it, and else leaves the flag. -/
theorem controlWrite_keeps_modeInvariants (v : Word) (s : State) :
    (modeHalts s → modeHalts (controlWrite v s)) ∧ (modeConsistent s → modeConsistent (controlWrite v s)) := by
  simp only [modeHalts, modeConsistent, controlWrite_mode, controlWrite_halted]
  by_cases hs : s.mode = modeRun <;> by_cases hv : controlMode v = modeRun <;> simp [hs, hv]

/-! ### The scrub status and the queue -/

theorem statusInvariants_congr {s t : State} (hi : t.initStatus = s.initStatus) (hq : t.scrubQueue = s.scrubQueue) :
    (statusExclusive s → statusExclusive t) ∧ (statusMatchesQueue s → statusMatchesQueue t) := by
  unfold statusExclusive statusMatchesQueue
  rw [hi, hq]
  exact ⟨id, id⟩

end Sys2Proof.Machine

/-!
SUPPORT. The statements of 10_state.md.
-/
namespace Sys2Proof.Proofs

open Sys2Proof.Machine Sys2Proof.Safety

/-- Settles O48: every effect but a block reset and a Control write adds to the counter or leaves it, and a Control write that does
not clear SoftwareReset leaves it. -/
theorem counterFallsOnlyAtAReset : Obligations.CounterFallsOnlyAtAReset := by
  unfold Obligations.CounterFallsOnlyAtAReset
  intro s t h hb hc
  cases stepEffect_of_step h with
  | idle q out => exact Nat.le_refl _
  | run _ _ _ _ _ _ _ le => exact le
  | hostreq | finish => simp
  | fault => simp
  | store r v hn =>
    by_cases hr : r = .control
    · subst hr
      have kept : ¬ (softwareResetFlag s.mode = true ∧ softwareResetFlag (controlMode v) = false) := by
        rw [softwareResetFlag_controlMode]
        exact fun hreset => hc _ hn ⟨v, rfl, hreset⟩
      obtain ⟨-, -, hi, -⟩ := controlWrite_core_kept (s := popTurn s) kept
      exact Nat.le_of_eq hi.symm
    · simp [regStore_instret hr]
  | scrub => simp
  | blockReset hn => exact absurd hn hb
  | load => simp

/-- Settles O51: a handshake and the block's reset halt under a mode that is not Run, the Control write keeps both invariants, and
every other effect leaves the mode and the flag. -/
theorem stepKeepsModeInvariant : Obligations.StepKeepsModeInvariant := by
  unfold Obligations.StepKeepsModeInvariant
  intro s t h
  cases stepEffect_of_step h with
  | idle | run => exact modeInvariants_congr rfl rfl
  | hostreq => exact modeInvariants_of_halted (m := modeFreeze) rfl (by decide) rfl
  | finish | fault | blockReset => exact modeInvariants_of_halted (m := modeFreezeReset) rfl (by decide) rfl
  | store r v =>
    by_cases hr : r = .control
    · subst hr
      exact controlWrite_keeps_modeInvariants v (popTurn s)
    · exact modeInvariants_congr (regStore_mode hr) (regStore_halted hr)
  | scrub | load => exact modeInvariants_congr (by simp) (by simp)

/-- Settles O52: an acceptance shows Pending over a queue that is not empty, a completion shows Done alone, the block's reset clears
all three, and every other effect leaves the status and the queue. -/
theorem stepKeepsStatusInvariant : Obligations.StepKeepsStatusInvariant := by
  unfold Obligations.StepKeepsStatusInvariant
  intro s t h
  cases stepEffect_of_step h with
  | idle | run => exact statusInvariants_congr rfl rfl
  | hostreq | finish | fault | load => exact statusInvariants_congr (by simp) (by simp)
  | store r v =>
    rcases regStore_scrub r v (popTurn s) with ⟨hi, hq⟩ | ⟨hi, hq⟩
    · exact statusInvariants_congr hi hq
    · simp [statusExclusive, statusMatchesQueue, hi, hq]
  | scrub => simp [statusExclusive, statusMatchesQueue]
  | blockReset => simp [statusExclusive, statusMatchesQueue, blockReset, State.reset]

/-- Settles O53: an erase and a load stay inside the extent, the block's reset fills it anew, and no effect writes a parameter. -/
theorem stepKeepsMemoriesSound : Obligations.StepKeepsMemoriesSound := by
  unfold Obligations.StepKeepsMemoriesSound
  intro s t h
  cases stepEffect_of_step h with
  | idle | run => exact ⟨rfl, memoriesSound_congr rfl rfl rfl⟩
  | hostreq | finish | fault => exact ⟨by simp, memoriesSound_congr (by simp) (by simp) (by simp)⟩
  | store r v => exact ⟨by simp, memoriesSound_congr (by simp) (by simp) (by simp)⟩
  | scrub r rest hn hq inside =>
    refine ⟨by simp, fun hs => ?_⟩
    have erased : memoriesSound (setMem r.target (eraseMemory s.plat.eraseByte r (memOf r.target s)) (popTurn s)) :=
      memoriesSound_setMem (s := popTurn s) hs (eraseMemory_wf _ r (wf_memOf hs r.target))
        (eraseMemory_within inside _ (within_memOf hs r.target))
    exact memoriesSound_congr (by simp) (by simp) (by simp) erased
  | blockReset => exact ⟨rfl, fun _ => blockReset_memoriesSound _⟩
  | load m off bs hn inside =>
    exact ⟨by simp, fun hs => memoriesSound_setMem (s := popTurn s) hs (Memory.store_wf bs (wf_memOf hs m))
      (Memory.store_within bs _ (within_memOf hs m) inside)⟩

/-- Settles O55: only the three handshakes, the write of Control and the block's reset set the mode. -/
theorem onlyTheModeControllerChangesMode : Obligations.OnlyTheModeControllerChangesMode := by
  unfold Obligations.OnlyTheModeControllerChangesMode
  intro s t h hne
  cases stepEffect_of_step h with
  | idle | run => exact absurd rfl hne
  | hostreq hn _ hf => exact ⟨_, hn, .inr (.inr (.inr ⟨rfl, .inl hf⟩))⟩
  | finish hn _ hf => exact ⟨_, hn, .inr (.inr (.inr ⟨rfl, .inr hf⟩))⟩
  | fault kind hn hw => exact ⟨_, hn, .inr (.inl ⟨kind, rfl, hw⟩)⟩
  | store r v hn =>
    by_cases hr : r = .control
    · subst hr
      exact ⟨_, hn, .inl ⟨_, v, rfl⟩⟩
    · exact absurd (regStore_mode hr) hne
  | scrub | load => exact absurd (by simp) hne
  | blockReset hn => exact ⟨_, hn, .inr (.inr (.inl rfl))⟩

/-- Settles O58: among the effects only a register write changes a stored register, and only the one at its own offset. -/
theorem storedRegistersHaveOneWriter : Obligations.StoredRegistersHaveOneWriter := by
  unfold Obligations.StoredRegistersHaveOneWriter
  intro s t h hb
  cases stepEffect_of_step h with
  | idle | run | hostreq | finish | fault | scrub | load => simp
  | store r v hn =>
    have wrote : ∀ r', r = r' → ∃ turn, nextTurn s = some turn ∧ writesAt (regOffset r') turn := by
      rintro _ rfl
      exact ⟨_, hn, _, v, rfl⟩
    obtain ⟨hctl, hen, hbank, herr, hstart, hend⟩ := regStore_writes_only_its_own r v (popTurn s)
    exact ⟨fun hne => wrote .control (not_imp_comm.mp hctl hne), fun hne => wrote .intrEnable (not_imp_comm.mp hen hne),
      fun hne => wrote .memoryBankControl (not_imp_comm.mp hbank hne),
      fun hne => wrote .errorStatus (not_imp_comm.mp herr hne),
      fun hne => wrote .initStart (not_imp_comm.mp hstart (not_and_or.mpr hne)),
      fun hne => wrote .initEnd (not_imp_comm.mp hend hne)⟩
  | blockReset hn => exact absurd hn hb

/-- Settles O59: among the effects only a completion, a load and the block's reset change a memory; and a load stores its list. -/
theorem memoryHasNoOtherWriter : Obligations.MemoryHasNoOtherWriter := by
  unfold Obligations.MemoryHasNoOtherWriter
  refine ⟨fun s t m a h hne => ?_, fun s m off bs rest hsch => ?_⟩
  · have changed : ¬ (t.imem = s.imem ∧ t.dmem = s.dmem) := fun ⟨hi, hd⟩ => hne (by rw [memOf_congr hi hd])
    cases stepEffect_of_step h with
    | idle | run => exact absurd ⟨rfl, rfl⟩ changed
    | hostreq | finish | fault | store => exact absurd (by simp) changed
    | scrub r rest hn => exact ⟨_, hn, .inl rfl⟩
    | blockReset hn => exact ⟨_, hn, .inr (.inr rfl)⟩
    | load m' off bs hn =>
      by_cases hm : m = m'
      · subst hm
        exact ⟨_, hn, .inr (.inl ⟨off, bs, rfl⟩)⟩
      · rw [memOf_setMem_ne _ _ _ _ hm, memOf_congr (s := s) rfl rfl] at hne
        exact absurd rfl hne
  · rw [step_load hsch]
    refine ⟨by split <;> simp <;> omega, fun inside => ?_⟩
    rw [if_pos inside]
    refine ⟨_, rfl, ?_, fun m' hm => ?_, fun hw => ⟨fun k hk => ?_, fun a ha => ?_⟩⟩
    · cases m <;> rfl
    · rw [memOf_setMem_ne _ _ _ _ hm]
      exact memOf_congr rfl rfl m'
    · rw [memOf_setMem_same, read_store_inside hw hk]
    · rw [memOf_setMem_same, read_store_outside hw ha]

/-- Settles O13: every turn of a halted core is idle, and a core that is halted with nothing queued has no turn. -/
theorem haltedCoreExecutesNothing : Obligations.HaltedCoreExecutesNothing := by
  unfold Obligations.HaltedCoreExecutesNothing
  refine ⟨fun s t rest hh hsch ht => ?_, fun s ⟨hh, _, hq⟩ hsch => ?_⟩
  · rcases ht with rfl | ⟨c, rfl⟩ | ⟨c, v, rfl⟩
    · have hn : nextTurn s = some .core := by simp [nextTurn, hsch]
      rw [step_eq_coreTurn hn]
      simp [coreTurn, hh, popTurn, hsch]
    · rw [step_env hsch]
      exact if_pos hh
    · rw [step_env hsch]
      exact if_pos hh
  · have hn : nextTurn s = none := by simp [nextTurn, hsch, hq, hh]
    simp [step, hn]

/-- Settles O26: index 0 by its own laws, another index by the register file's. -/
theorem registerZeroIsHardwired : Obligations.RegisterZeroIsHardwired := by
  unfold Obligations.RegisterZeroIsHardwired
  exact fun s v => ⟨readReg_zero s, writeReg_zero v s, fun i hi => readReg_writeReg_same hi v s,
    fun i j hj => readReg_writeReg_ne hj v s⟩

/-- Settles O49: the reset state's fields, read through the register file and the lines. -/
theorem resetStateOfTheBlock : Obligations.ResetStateOfTheBlock := by
  unfold Obligations.ResetStateOfTheBlock
  refine ⟨rfl, rfl, rfl, fun k => ?_, ?_, rfl, rfl⟩
  · cases k <;> rfl
  · decide

/-- Settles O54: the reset state is halted in mode 3 with nothing queued and nothing stored, on the reset platform. -/
theorem resetMeetsTheInvariants : Obligations.ResetMeetsTheInvariants := by
  unfold Obligations.ResetMeetsTheInvariants
  obtain ⟨hi, hd⟩ := reset_memories_wf
  have extents : State.reset.imem.within State.reset.plat.imemSize ∧ State.reset.dmem.within State.reset.plat.dmemSize :=
    ⟨List.forall_mem_nil _, List.forall_mem_nil _⟩
  exact ⟨⟨by decide, by decide, by decide, hi, hd, extents⟩, by decide⟩

end Sys2Proof.Proofs

/-!
SUPPORT. The Control write in one record.
-/
namespace Sys2Proof.Machine

/-- The Control word clears SoftwareReset: the condition of step 2 of R161. -/
def clearsReset (v : Word) (s : State) : Bool := softwareResetFlag s.mode && !softwareResetFlag (controlMode v)

theorem clearsReset_iff (v : Word) (s : State) :
    clearsReset v s = true ↔ softwareResetFlag s.mode = true ∧ softwareResetFlag (controlMode v) = false := by
  simp [clearsReset]

/-- The whole transition of R161. -/
theorem controlWrite_eq (v : Word) (s : State) :
    controlWrite v s = { s with
      mode := controlMode v
      pcStart := controlPayload v
      halted :=
        if s.mode = modeRun ∧ controlMode v ≠ modeRun then true
        else if s.mode ≠ modeRun ∧ controlMode v = modeRun then false
        else s.halted
      pc := if clearsReset v s then startPC s.plat (controlPayload v) else s.pc
      x := if clearsReset v s then Config.resetRegisters s.tick else s.x
      instret := if clearsReset v s then Config.resetCounter s.tick else s.instret
      tick := if clearsReset v s then s.tick + 1 else s.tick
      out := { s.out with
        coreSignals := s.out.coreSignals ++ (if clearsReset v s then [.reset] else []) ++
          (if s.mode ≠ modeRun ∧ controlMode v = modeRun then [.resume] else []) } } := by
  simp only [controlWrite, controlHalt, controlReset, controlResume, ← clearsReset_iff]
  -- What the steps do depends on three tests: the mode before, the mode written, and the clearing of SoftwareReset.
  by_cases run : s.mode = modeRun <;> by_cases new : controlMode v = modeRun <;> cases clearsReset v s <;>
    simp [run, new, controlStore, resumeCore, setPc, coreReset, forgetCoreState, signalCore]

end Sys2Proof.Machine

/-!
SUPPORT. The stored, unused fields of R26 and R27: every operation but the accesses to MemoryBankControl and ErrorStatus and the
block's reset commutes with replacing them.
-/
namespace Sys2Proof.Machine

open Sys2Proof.Safety

/-- An answer with its next state mapped; a fault or a refusal stays as it is. -/
def mapNext (f : State → State) : Result → Result
  | .next s => .next (f s)
  | .fault r => .fault r
  | .refused r => .refused r

theorem mapNext_ite (f : State → State) (c : Prop) [Decidable c] (a b : Result) :
    mapNext f (if c then a else b) = if c then mapNext f a else mapNext f b :=
  apply_ite (mapNext f) c a b

section

variable (bank : BitVec 12) (err : BitVec 14) (s : State)

/-! ### What reads the same -/

@[simp] theorem withProtection_plat : (withProtection bank err s).plat = s.plat := rfl
@[simp] theorem withProtection_halted : (withProtection bank err s).halted = s.halted := rfl
@[simp] theorem withProtection_scrubQueue : (withProtection bank err s).scrubQueue = s.scrubQueue := rfl
@[simp] theorem readReg_withProtection (i : RegIdx) : readReg i (withProtection bank err s) = readReg i s := rfl
@[simp] theorem memOf_withProtection (t : MemTarget) : memOf t (withProtection bank err s) = memOf t s := by cases t <;> rfl
@[simp] theorem fetch_withProtection : fetch (withProtection bank err s) = fetch s := rfl
@[simp] theorem nextTurn_withProtection : nextTurn (withProtection bank err s) = nextTurn s := rfl

/-! ### The operations of the instructions -/

theorem writeReg_withProtection (i : RegIdx) (v : Word) :
    writeReg i v (withProtection bank err s) = withProtection bank err (writeReg i v s) := by
  unfold writeReg
  split <;> rfl

theorem handshake_withProtection (k : Source) (m : BitVec 2) :
    handshake k m (withProtection bank err s) = withProtection bank err (handshake k m s) := by
  simp only [handshake_eq]
  rfl

theorem busRead_withProtection (a : Word) :
    busRead a (withProtection bank err s) = (busRead a s).map (Prod.map id (withProtection bank err)) := by
  simp only [busRead, withProtection_plat, memOf_withProtection]
  cases busTarget s.plat a <;> rfl

theorem readText_withProtection (n : Nat) (ptr : Word) :
    readText n ptr (withProtection bank err s) = (readText n ptr s).map (Prod.map id (withProtection bank err)) := by
  induction n generalizing ptr s with
  | zero => rfl
  | succ n ih =>
    simp only [readText, busRead_withProtection]
    cases busRead ptr s with
    | error r => rfl
    | ok p =>
      obtain ⟨b, s'⟩ := p
      simp only [Except.map, Prod.map, id, ih]
      split
      · rfl
      · cases readText n (ptr + 1#32) s' <;> rfl

theorem countOrReject_withProtection (rd sel : RegIdx) :
    countOrReject rd sel (withProtection bank err s) = withProtection bank err (countOrReject rd sel s) := by
  unfold countOrReject
  split
  · exact writeReg_withProtection bank err s rd _
  · rfl

theorem exec_withProtection (i : Instr) :
    exec i (withProtection bank err s) = mapNext (withProtection bank err) (exec i s) := by
  cases i with
  | simprint rd rs1 rs2 =>
    simp only [exec, execSimprint, readReg_withProtection, readText_withProtection]
    cases severityOfLevel (readReg rd s) with
    | none => rfl
    | some sev => cases readText Config.simprintMax (readReg rs1 s) s <;> rfl
  | xcount rd sel | xcountBadsel rd sel =>
    exact congrArg (fun t => Host.Outcome.next (retire t)) (countOrReject_withProtection bank err s rd sel)
  | hostreq | finish => exact congrArg (fun t => Host.Outcome.next (retire t)) (handshake_withProtection bank err s _ _)
  | unrecognised f => rfl

theorem coreTurn_withProtection :
    coreTurn (withProtection bank err s) = mapNext (withProtection bank err) (coreTurn s) := by
  simp only [coreTurn, withProtection_halted, fetch_withProtection, exec_withProtection, mapNext_ite]
  cases fetch s <;> rfl

/-! ### The register file -/

theorem controlWrite_withProtection (v : Word) :
    controlWrite v (withProtection bank err s) = withProtection bank err (controlWrite v s) := by
  simp only [controlWrite_eq]
  rfl

theorem writeInitEnd_withProtection (v : Word) :
    writeInitEnd v (withProtection bank err s) = withProtection bank err (writeInitEnd v s) := by
  unfold writeInitEnd
  split <;> rfl

/-- An offset other than those of MemoryBankControl and ErrorStatus has another register or none. -/
theorem regAt_ne_protection {off : BitVec 10} (h : (off == 0x10#10 || off == 0x14#10) = false) {r : CtrlReg}
    (hr : regAt off = some r) : r ≠ .memoryBankControl ∧ r ≠ .errorStatus := by
  obtain rfl := eq_regOffset_of_regAt hr
  constructor <;> rintro rfl <;> simp [regOffset] at h

theorem offsetStore_withProtection {off : BitVec 10} (h : (off == 0x10#10 || off == 0x14#10) = false) (v : Word) :
    offsetStore off v (withProtection bank err s) = withProtection bank err (offsetStore off v s) := by
  unfold offsetStore
  cases hr : regAt off with
  | none => rfl
  | some r =>
    obtain ⟨hbank, herr⟩ := regAt_ne_protection h hr
    cases r with
    | memoryBankControl => exact absurd rfl hbank
    | errorStatus => exact absurd rfl herr
    | control => exact controlWrite_withProtection bank err s v
    | initEnd => exact writeInitEnd_withProtection bank err s v
    | _ => rfl

theorem offsetValue_withProtection {off : BitVec 10} (h : (off == 0x10#10 || off == 0x14#10) = false) :
    offsetValue off (withProtection bank err s) = offsetValue off s := by
  unfold offsetValue
  cases hr : regAt off with
  | none => rfl
  | some r =>
    obtain ⟨hbank, herr⟩ := regAt_ne_protection h hr
    cases r with
    | memoryBankControl => exact absurd rfl hbank
    | errorStatus => exact absurd rfl herr
    | _ => rfl

/-! ### The other actions -/

theorem setMem_withProtection (t : MemTarget) (m : Memory) :
    setMem t m (withProtection bank err s) = withProtection bank err (setMem t m s) := by
  cases t <;> rfl

theorem completeScrub_withProtection :
    completeScrub (withProtection bank err s) = mapNext (withProtection bank err) (completeScrub s) := by
  simp only [completeScrub, withProtection_scrubQueue, withProtection_plat, memOf_withProtection, setMem_withProtection]
  cases s.scrubQueue with
  | nil => rfl
  | cons r rest => simp only [mapNext_ite]; rfl

theorem perform_withProtection {a : EnvAction} (h : touchesProtection (.env a) = false) :
    perform a (withProtection bank err s) = mapNext (withProtection bank err) (perform a s) := by
  cases a with
  | regRead off width =>
    simp only [perform, busReadAccess, offsetValue_withProtection bank err s h, mapNext_ite]
    rfl
  | regWrite off width v =>
    simp only [perform, busWriteAccess, offsetStore_withProtection bank err s h, mapNext_ite]
    rfl
  | faultReport kind =>
    simp only [perform, faultInput, reportFault, handshake_withProtection, withProtection_plat]
    split <;> rfl
  | syncPoint => exact completeScrub_withProtection bank err s
  | csrRead csr =>
    simp only [perform, counterRead, withProtection_halted, withProtection_plat, mapNext_ite]
    rfl
  | csrWrite csr v =>
    simp only [perform, counterWrite, withProtection_halted, withProtection_plat, mapNext_ite]
    rfl
  | blockReset => cases h
  | load t off bs =>
    simp only [perform, loadBytes, withProtection_plat, memOf_withProtection, setMem_withProtection, mapNext_ite]
    rfl

/-! ### The step -/

theorem takeTurn_withProtection {t : Turn} (h : touchesProtection t = false) :
    takeTurn t (withProtection bank err s) = mapNext (withProtection bank err) (takeTurn t s) := by
  cases t with
  | core => exact coreTurn_withProtection bank err s
  | env a => exact perform_withProtection bank err s h

/-- R67: a step that neither accesses the two registers nor resets the block commutes with replacing them. -/
theorem step_withProtection (h : ∀ turn, nextTurn s = some turn → touchesProtection turn = false) :
    step (withProtection bank err s) = mapNext (withProtection bank err) (step s) := by
  simp only [step, nextTurn_withProtection]
  cases hn : nextTurn s with
  | none => rfl
  | some turn => exact takeTurn_withProtection bank err (popTurn s) (h turn hn)

end

end Sys2Proof.Machine

/-!
SUPPORT. The severities of `simprint`, and where its text loop stops.
-/
namespace Sys2Proof.Machine

open Sys2Proof.Safety

/-- The levels above 4, and they alone, select no severity (R131). -/
theorem severityOfLevel_eq_none_iff (level : Word) : severityOfLevel level = none ↔ 4 < level.toNat := by
  unfold severityOfLevel
  split_ifs <;> simp <;> bv_omega

/-- The next address of the text loop is one more, with the wrap of D15. -/
theorem add_one_add_ofNat (ptr : Word) (k : Nat) : ptr + 1#32 + BitVec.ofNat 32 k = ptr + BitVec.ofNat 32 (k + 1) := by
  rw [BitVec.add_assoc, BitVec.ofNat_add, BitVec.add_comm 1#32]

theorem addressesFrom_succ (ptr : Word) (k : Nat) :
    addressesFrom ptr (k + 1) = ptr :: addressesFrom (ptr + 1#32) k := by
  simp [addressesFrom, List.range_succ_eq_map, add_one_add_ofNat]

/-- The text loop passes nonzero characters in the two memories and is refused by the first bus read that is (R63, R212). -/
theorem readText_refused_after {k : Nat} : ∀ {n : Nat} {ptr : Word} {s : State} {r : Refusal}, k < n →
    (∀ a ∈ addressesFrom ptr k, mapsToMemory s.plat a ∧ maskChar (byteAt s a) ≠ 0#7) →
    (∀ s', s'.plat = s.plat → busRead (ptr + BitVec.ofNat 32 k) s' = .error r) →
    readText n ptr s = .error r := by
  induction k with
  | zero =>
    intro n ptr s r hk _ stop
    obtain ⟨n, rfl⟩ := Nat.exists_eq_succ_of_ne_zero hk.ne'
    have refused : busRead ptr s = .error r := by simpa using stop s rfl
    simp only [readText, refused]
  | succ k ih =>
    intro n ptr s r hk pass stop
    obtain ⟨n, rfl⟩ := Nat.exists_eq_succ_of_ne_zero (Nat.ne_zero_of_lt hk)
    rw [addressesFrom_succ, List.forall_mem_cons] at pass
    obtain ⟨⟨mapped, nonzero⟩, pass⟩ := pass
    rw [← add_one_add_ofNat] at stop
    have rest : readText n (ptr + 1#32) (noteBusRead ptr s) = .error r := ih (Nat.lt_of_succ_lt_succ hk) pass stop
    simp only [readText, busRead_memory mapped, if_neg nonzero, rest]

/-- `simprint` with a level of at most 4 is refused as its text loop is. -/
theorem exec_simprint_refused {rd rs1 rs2 : RegIdx} {s : State} {r : Refusal} (hl : (readReg rd s).toNat ≤ 4)
    (h : readText Config.simprintMax (readReg rs1 s) s = .error r) : exec (.simprint rd rs1 rs2) s = .refused r := by
  cases hs : severityOfLevel (readReg rd s) with
  | none => exact absurd ((severityOfLevel_eq_none_iff _).mp hs) (Nat.not_lt.mpr hl)
  | some sev => simp only [exec, execSimprint, hs, h]

theorem busRead_of_nothing {a : Word} {s : State} (h : busTarget s.plat a = .nothing) :
    busRead a s = .error (.busUnanswered a) := by
  simp only [busRead, h]

theorem busRead_of_registerFile {a : Word} {s : State} (h : busTarget s.plat a = .registerFile) :
    busRead a s = .error (.busReadOfRegisterFile a) := by
  simp only [busRead, h]

end Sys2Proof.Machine

/-!
SUPPORT. The repeated write of a register: the second write of a word finds what the first one left.
-/
namespace Sys2Proof.Machine

theorem clearBits_clearBits (p m : BitVec 4) : clearBits (clearBits p m) m = clearBits p m := by
  simp only [clearBits, BitVec.and_assoc, BitVec.and_self]

theorem setBits_setBits (p m : BitVec 4) : setBits (setBits p m) m = setBits p m := by
  simp only [setBits, BitVec.or_assoc, BitVec.or_self]

/-- A Control write of the present mode only stores: none of the steps 1 to 3 of R161 applies. -/
theorem controlWrite_of_mode_eq {v : Word} {s : State} (h : s.mode = controlMode v) :
    controlWrite v s = controlStore (controlMode v) (controlPayload v) s := by
  simp [controlWrite, controlHalt, controlReset, controlResume, h]

theorem writeInitEnd_of_not_valid {v : Word} (h : v.getLsbD 22 = false) (s : State) :
    writeInitEnd v s = { s with initEnd := v.extractLsb' 0 22 } :=
  if_neg (Bool.eq_false_iff.mp h)

/-- With Valid set a write of InitEnd adds one request to the queue (R180, D8). -/
theorem writeInitEnd_queue_length {v : Word} (h : v.getLsbD 22 = true) (s : State) :
    (writeInitEnd v s).scrubQueue.length = s.scrubQueue.length + 1 := by
  rw [writeInitEnd, if_pos h]
  simp

/-- R65 for a register: the same word twice is the same word once, InitEnd with Valid set apart. -/
theorem regStore_regStore_same {r : CtrlReg} {v : Word} (h : r = .initEnd → v.getLsbD 22 = false) (s : State) :
    regStore r v (regStore r v s) = regStore r v s := by
  cases r with
  | intrState => simp [regStore, writePendingClear, clearBits_clearBits]
  | intrTest => simp [regStore, writeTestSet, setBits_setBits]
  | control =>
    simp only [regStore]
    rw [controlWrite_of_mode_eq (controlWrite_mode v s)]
    rfl
  | initEnd => simp [regStore, writeInitEnd_of_not_valid (h rfl)]
  | _ => rfl

theorem offsetStore_offsetStore_same {off : BitVec 10} {v : Word} (h : off = 0x1C#10 → v.getLsbD 22 = false) (s : State) :
    offsetStore off v (offsetStore off v s) = offsetStore off v s := by
  unfold offsetStore
  cases hr : regAt off with
  | none => rfl
  | some r => exact regStore_regStore_same (fun e => h (by rw [eq_regOffset_of_regAt hr, e]; rfl)) s

/-- A register write neither reads nor changes the turns to come. -/
theorem offsetStore_withSchedule (off : BitVec 10) (v : Word) (s : State) (q : List Turn) :
    offsetStore off v { s with schedule := q } = { offsetStore off v s with schedule := q } := by
  unfold offsetStore
  cases regAt off with
  | none => rfl
  | some r =>
    cases r with
    | control => simp only [regStore, controlWrite_eq]; rfl
    | initEnd => simp only [regStore, writeInitEnd]; split <;> rfl
    | _ => rfl

/-- A scheduled register write of an aligned word stores and leaves the turns after it. -/
theorem step_withSchedule_regWrite {off : BitVec 10} (ha : off.toNat % 4 = 0) (s : State) (v : Word) (rest : List Turn) :
    step { s with schedule := .env (.regWrite off .word v) :: rest } =
      .next { offsetStore off v s with schedule := rest } := by
  rw [← offsetStore_withSchedule]
  exact step_regWrite rfl ha

/-- Two steps are the step after the first. -/
theorem run_two_of_step_next {s t : State} (h : step s = .next t) : Sys2Proof.core.run 2 s = step t := by
  have first : Sys2Proof.core.step s = .next t := h
  have second : Sys2Proof.core.step t = step t := rfl
  simp only [Host.Core.run, first, second]
  cases step t <;> rfl

end Sys2Proof.Machine

/-!
SUPPORT. The statements of 20_memory.md.
-/
namespace Sys2Proof.Proofs

open Sys2Proof.Machine Sys2Proof.Safety

/-- Settles O60: the step commutes with replacing the two fields, so it answers in both states alike. -/
theorem protectionBitsHaveNoEffect : Obligations.ProtectionBitsHaveNoEffect := by
  unfold Obligations.ProtectionBitsHaveNoEffect
  intro s bank err h
  have commutes := step_withProtection bank err s h
  refine ⟨fun t ht => ?_, fun r hr => ?_⟩
  · rw [commutes, ht]; rfl
  · rw [commutes, hr]; rfl

/-- Settles O18: the text loop passes the `k` addresses and is refused at the next by the bus map's answer there. -/
theorem simprintStopsWhereTheBusHasNoAnswer : Obligations.SimprintStopsWhereTheBusHasNoAnswer := by
  unfold Obligations.SimprintStopsWhereTheBusHasNoAnswer
  intro rd rs1 rs2 s k hl hk pass
  refine ⟨fun target => ?_, fun target => ?_⟩ <;>
    refine exec_simprint_refused hl (readText_refused_after hk pass fun s' hplat => ?_) <;>
    rw [← hplat] at target
  · exact busRead_of_nothing target
  · exact busRead_of_registerFile target

/-- Settles O45: every register but InitEnd with Valid stores the same again, the turns to come play no part in a store, and each
write with Valid queues one request. -/
theorem repeatedWritesAreIdempotent : Obligations.RepeatedWritesAreIdempotent := by
  unfold Obligations.RepeatedWritesAreIdempotent
  refine ⟨fun s v off h => offsetStore_offsetStore_same h s, fun s v off h ha => ?_, fun s v h => ?_⟩
  · rw [run_two_of_step_next (step_withSchedule_regWrite ha s v _), step_withSchedule_regWrite ha,
      step_withSchedule_regWrite ha, offsetStore_offsetStore_same h]
  · have initEnd : ∀ s, offsetStore 0x1C#10 v s = writeInitEnd v s := fun _ => rfl
    simp only [initEnd, writeInitEnd_queue_length h]

end Sys2Proof.Proofs

/-!
SUPPORT. The encoder and the decoder, each said once: a word and its fields, masks field by field, and the instruction of each
row of the opcode table.
-/
namespace Sys2Proof

open Sys2Proof.Safety

/-! ### A word and its fields (R100, R120) -/

/-- R123: the codec recovers the fields that made a word, each once those below it are cut off. -/
@[simp] theorem extract_encodeFields (f7 : BitVec 7) (rs2 rs1 : RegIdx) (f3 : BitVec 3) (rd : RegIdx) :
    extract (encodeFields f7 rs2 rs1 f3 rd) = { rd := rd, funct3 := f3, rs1 := rs1, rs2 := rs2 } := by
  simp only [extract, encodeFields, Fields.mk.injEq]
  refine ⟨?_, ?_, ?_, ?_⟩ <;> (repeat rw [BitVec.extractLsb'_append_eq_of_le (by decide)]) <;>
    exact BitVec.extractLsb'_append_eq_right

/-- A word of the block is made of its bits [31:25] and its four fields. -/
theorem encodeFields_extract {w : Word} (h : matchesPattern w = true) :
    encodeFields (w.extractLsb' 25 7) (extract w).rs2 (extract w).rs1 (extract w).funct3 (extract w).rd = w := by
  rw [matchesPattern, beq_iff_eq] at h
  simp only [encodeFields, extract, ← h, BitVec.extractLsb'_append_extractLsb'_eq_extractLsb']
  simp

/-- A mask that keeps the opcode acts on each field by its own part. -/
theorem encodeFields_and (f7 m7 : BitVec 7) (rs2 m2 rs1 m1 : RegIdx) (f3 m3 : BitVec 3) (rd md : RegIdx) :
    encodeFields f7 rs2 rs1 f3 rd &&& (m7 ++ m2 ++ m1 ++ m3 ++ md ++ BitVec.allOnes 7) =
      encodeFields (f7 &&& m7) (rs2 &&& m2) (rs1 &&& m1) (f3 &&& m3) (rd &&& md) := by
  have fieldwise :
      (f7 ++ rs2 ++ rs1 ++ f3 ++ rd ++ Config.customOpcode) &&& (m7 ++ m2 ++ m1 ++ m3 ++ md ++ BitVec.allOnes 7) =
        (f7 &&& m7) ++ (rs2 &&& m2) ++ (rs1 &&& m1) ++ (f3 &&& m3) ++ (rd &&& md) ++ Config.customOpcode := by
    simp only [BitVec.and_append, BitVec.and_allOnes]
  exact fieldwise

/-- Words equal under a mask are equal in every field the mask keeps whole. -/
theorem extractLsb'_eq_of_and_eq {w w' mask : Word} (h : w &&& mask = w' &&& mask) {start len : Nat}
    (whole : mask.extractLsb' start len = BitVec.allOnes len) : w.extractLsb' start len = w'.extractLsb' start len := by
  simpa [BitVec.extractLsb'_and, whole] using congrArg (BitVec.extractLsb' start len) h

/-- A word of the block under a mask that keeps the opcode and, of the fields, bits of rs1 and funct3 alone. -/
theorem and_fixedFields {w : Word} (hw : matchesPattern w = true) (m1 : RegIdx) (m3 : BitVec 3) :
    w &&& (0#7 ++ 0#5 ++ m1 ++ m3 ++ 0#5 ++ BitVec.allOnes 7) =
      encodeFields 0#7 0#5 ((extract w).rs1 &&& m1) ((extract w).funct3 &&& m3) 0#5 := by
  have fieldwise := encodeFields_and (w.extractLsb' 25 7) 0#7 (extract w).rs2 0#5 (extract w).rs1 m1 (extract w).funct3 m3
    (extract w).rd 0#5
  simpa only [encodeFields_extract hw, BitVec.and_zero] using fieldwise

/-- The values of funct3 without an instruction are those with bit 2 set, as their row tests it (R97). -/
theorem four_le_iff_and (funct3 : BitVec 3) : 4 ≤ funct3.toNat ↔ funct3 &&& 4#3 = 4#3 := by
  revert funct3
  decide

/-! ### The selector of `xcount` (R95) -/

theorem validSelector_iff (sel : RegIdx) : validSelector sel = true ↔ sel.toNat ≤ 1 := by
  simp only [validSelector, Bool.or_eq_true, beq_iff_eq]
  bv_omega

theorem validSelector_eq_false_iff (sel : RegIdx) : validSelector sel = false ↔ 2 ≤ sel.toNat := by
  rw [Bool.eq_false_iff, Ne, validSelector_iff, Nat.not_le]
  rfl

/-- The valid selectors are those without a bit above bit 0, as the row of `xcount` tests them. -/
theorem validSelector_iff_and (sel : RegIdx) : validSelector sel = true ↔ sel &&& 0b11110#5 = 0#5 := by
  revert sel
  decide

/-! ### The opcode map (R94), row by row -/

section

variable {f : Fields}

theorem instrOfFields_of_zero (h : f.funct3 = 0#3) : instrOfFields f = .simprint f.rd f.rs1 f.rs2 := if_pos h

theorem instrOfFields_of_one (h : f.funct3 = 1#3) :
    instrOfFields f = if validSelector f.rs1 then .xcount f.rd f.rs1 else .xcountBadsel f.rd f.rs1 := by
  simp [instrOfFields, h]

theorem instrOfFields_of_two_le (h : 2 ≤ f.funct3.toNat) :
    instrOfFields f =
      if f.funct3 = 2#3 then .hostreq else if f.funct3 = 3#3 then .finish else .unrecognised f.funct3 := by
  rw [instrOfFields, if_neg (by bv_omega), if_neg (by bv_omega)]

theorem instrOfFields_of_four_le (h : 4 ≤ f.funct3.toNat) : instrOfFields f = .unrecognised f.funct3 := by
  rw [instrOfFields_of_two_le (by omega), if_neg (by bv_omega), if_neg (by bv_omega)]

end

/-- The row of the opcode table that fields fall under, with the row's condition on them. -/
inductive RowOf (f : Fields) : Instr → Prop where
  | simprint (funct3 : f.funct3 = 0#3) : RowOf f (.simprint f.rd f.rs1 f.rs2)
  | xcount (funct3 : f.funct3 = 1#3) (valid : validSelector f.rs1 = true) : RowOf f (.xcount f.rd f.rs1)
  | xcountBadsel (funct3 : f.funct3 = 1#3) (invalid : validSelector f.rs1 = false) : RowOf f (.xcountBadsel f.rd f.rs1)
  | hostreq (funct3 : f.funct3 = 2#3) : RowOf f .hostreq
  | finish (funct3 : f.funct3 = 3#3) : RowOf f .finish
  | unrecognised (funct3 : 4 ≤ f.funct3.toNat) : RowOf f (.unrecognised f.funct3)

theorem rowOf_instrOfFields (f : Fields) : RowOf f (instrOfFields f) := by
  unfold instrOfFields
  split_ifs with h0 h1 hv h2 h3
  · exact .simprint h0
  · exact .xcount h1 hv
  · exact .xcountBadsel h1 (Bool.eq_false_iff.mpr hv)
  · exact .hostreq h2
  · exact .finish h3
  · exact .unrecognised (by bv_omega)

/-- A word of the block under the mask of its row is the match of that row (opcode_table.json). -/
theorem and_rowMask_eq_rowMatch {w : Word} {i : Instr} (hw : matchesPattern w = true) (row : RowOf (extract w) i) :
    w &&& rowMask i = rowMatch i := by
  have fixed := and_fixedFields hw
  unfold encodeFields Config.customOpcode at fixed
  cases row with
  | simprint funct3 | xcountBadsel funct3 _ | hostreq funct3 | finish funct3 =>
    simpa [rowMask, rowMatch, funct3] using fixed 0#5 7#3
  | xcount funct3 valid =>
    simpa [rowMask, rowMatch, funct3, (validSelector_iff_and _).mp valid] using fixed 0b11110#5 7#3
  | unrecognised funct3 =>
    simpa [rowMask, rowMatch, (four_le_iff_and _).mp funct3] using fixed 0#5 4#3

/-- Each row makes only instructions with the field ranges of R95 and R97. -/
theorem RowOf.wellFormed {f : Fields} {i : Instr} (h : RowOf f i) : i.wellFormed = true := by
  cases h with
  | simprint | hostreq | finish => rfl
  | xcount _ valid => exact valid
  | xcountBadsel _ invalid => simp [Instr.wellFormed, invalid]
  | unrecognised funct3 => exact decide_eq_true funct3

/-! ### The decoder -/

theorem decodeWord_of_matchesPattern {w : Word} (h : matchesPattern w = true) :
    decodeWord w = .ok (instrOfFields (extract w)) :=
  if_pos h

/-- A word that decodes is under the pattern, and its fields fall under the row of its instruction. -/
theorem decodeWord_ok {w : Word} {i : Instr} (h : decodeWord w = .ok i) :
    matchesPattern w = true ∧ i = instrOfFields (extract w) := by
  unfold decodeWord at h
  split at h
  · next hp => cases h; exact ⟨hp, rfl⟩
  · cases h

/-- A word with the opcode of a word of the block decodes as it does when the opcode map does not tell their fields apart. -/
theorem decodeWord_congr {w w' : Word} (hw : matchesPattern w = true) (opcode : w.extractLsb' 0 7 = w'.extractLsb' 0 7)
    (fields : instrOfFields (extract w') = instrOfFields (extract w)) : decodeWord w' = decodeWord w := by
  have hw' : matchesPattern w' = true := by rwa [matchesPattern, ← opcode]
  rw [decodeWord_of_matchesPattern hw, decodeWord_of_matchesPattern hw', fields]

/-- Each well-formed instruction is the one its own fields select. -/
theorem decodeWord_encode {i : Instr} (h : i.wellFormed = true) : decodeWord (encode i) = .ok i := by
  have fields : ∀ rs2 rs1 f3 rd, decodeWord (encodeFields 0#7 rs2 rs1 f3 rd) =
      .ok (instrOfFields { rd := rd, funct3 := f3, rs1 := rs1, rs2 := rs2 }) := fun rs2 rs1 f3 rd => by
    rw [decodeWord_of_matchesPattern (Laws.encodeFields_opcode ..), extract_encodeFields]
  cases i with
  | simprint rd rs1 rs2 => exact fields ..
  | xcount rd sel =>
    have valid : validSelector sel = true := h
    rw [encode, fields, instrOfFields_of_one rfl, if_pos valid]
  | xcountBadsel rd sel =>
    have invalid : ¬ validSelector sel = true := by simpa [Instr.wellFormed] using h
    rw [encode, fields, instrOfFields_of_one rfl, if_neg invalid]
  | hostreq => exact fields ..
  | finish => exact fields ..
  | unrecognised f => rw [encode, fields, instrOfFields_of_four_le (by simpa [Instr.wellFormed] using h)]

end Sys2Proof

/-!
SUPPORT. What the instructions of a well-formed and of a malformed request answer.
-/
namespace Sys2Proof.Machine

/-- R132: with a valid selector `xcount` writes the sample taken before its own advance. -/
theorem exec_xcount_of_valid {sel : RegIdx} (h : validSelector sel = true) (rd : RegIdx) (s : State) :
    exec (.xcount rd sel) s = .next (retire (writeReg rd (counterSample s) s)) := by
  simp only [exec, execXcount, countOrReject, if_pos h]

/-- R132 (d). -/
theorem exec_xcountBadsel_of_invalid {sel : RegIdx} (h : validSelector sel = false) (rd : RegIdx) (s : State) :
    exec (.xcountBadsel rd sel) s = .next (retire (logErr (.badCountSelector sel) s)) := by
  simp only [exec, execXcountBadsel, countOrReject, h, if_neg Bool.false_ne_true]

/-- R131: a level above 4. -/
theorem exec_simprint_of_badLevel {rd : RegIdx} {s : State} (h : 4 < (readReg rd s).toNat) (rs1 rs2 : RegIdx) :
    exec (.simprint rd rs1 rs2) s = .next (retire (logErr (.badLogLevel (readReg rd s)) s)) := by
  simp only [exec, execSimprint, (severityOfLevel_eq_none_iff _).mpr h]

/-- R135. -/
theorem exec_unrecognised (f : BitVec 3) (s : State) :
    exec (.unrecognised f) s = .next (retire (logErr (.unknownFunct3 f) s)) := rfl

/-- A dispatch that only logs an error moves the log, the pc and the counter, and nothing else. -/
theorem retire_logErr_frame (e : ErrEvent) (s : State) :
    retire (logErr e s) = { s with
      out := { s.out with log := s.out.log ++ [.err e] }
      pc := (retire (logErr e s)).pc
      instret := (retire (logErr e s)).instret
      tick := (retire (logErr e s)).tick } := rfl

end Sys2Proof.Machine

/-!
SUPPORT. The statements of 30_encoding.md.
-/
namespace Sys2Proof.Proofs

open Sys2Proof.Machine Sys2Proof.Safety

/-- Settles O2: the bytes make the word again, and its fields select the instruction. -/
theorem decodeOfEncodeIsIdentity : Obligations.DecodeOfEncodeIsIdentity := by
  unfold Obligations.DecodeOfEncodeIsIdentity
  intro i rest h
  rw [encodeBytes, decode_bytesOfWord_append, decodeWord_encode h]
  rfl

/-- Settles O5: the mask and match are the pattern, under which the opcode map is total and makes well-formed instructions. -/
theorem patternSelectsTheBlocksWords : Obligations.PatternSelectsTheBlocksWords := by
  unfold Obligations.PatternSelectsTheBlocksWords
  intro w
  rw [Ne, ← matchesPattern_iff, Bool.not_eq_true]
  exact ⟨fun h => ⟨_, decodeWord_of_matchesPattern h, (rowOf_instrOfFields _).wellFormed⟩,
    decodeWord_of_not_matchesPattern⟩

/-- Settles O6: the row's mask and match by the row's condition on the fields; the operands are the fields, and a malformed selector
has a bit that the mask of the valid row sees. -/
theorem decodedWordMatchesItsTableRow : Obligations.DecodedWordMatchesItsTableRow := by
  unfold Obligations.DecodedWordMatchesItsTableRow
  intro w i h
  obtain ⟨hw, rfl⟩ := decodeWord_ok h
  have row := rowOf_instrOfFields (extract w)
  refine ⟨and_rowMask_eq_rowMatch hw row, ?_⟩
  generalize instrOfFields (extract w) = i at row
  cases row with
  | simprint => exact ⟨rfl, rfl, rfl⟩
  | xcount => exact ⟨rfl, rfl⟩
  | xcountBadsel funct3 invalid =>
    refine ⟨rfl, rfl, fun hm => ?_⟩
    have selector : (extract w).rs1 &&& 0b11110#5 = 0#5 := by
      simpa [extract, BitVec.extractLsb'_and] using congrArg (BitVec.extractLsb' 15 5) hm
    exact absurd ((validSelector_iff_and _).mpr selector) (Bool.eq_false_iff.mp invalid)
  | hostreq => trivial
  | finish => trivial
  | unrecognised => rfl

/-- Settles O7: each mask keeps whole the opcode and the fields that the opcode map reads there. -/
theorem unusedBitsAreIgnored : Obligations.UnusedBitsAreIgnored := by
  unfold Obligations.UnusedBitsAreIgnored
  intro w w' hw
  refine ⟨fun h => ?_, fun one h => ?_, fun two_le h => ?_⟩ <;>
    refine decodeWord_congr hw (extractLsb'_eq_of_and_eq h (by decide)) ?_ <;>
    have funct3 : (extract w).funct3 = (extract w').funct3 := extractLsb'_eq_of_and_eq h (by decide)
  · have same : extract w = extract w' := by
      simp only [extract, Fields.mk.injEq]
      exact ⟨extractLsb'_eq_of_and_eq h (by decide), funct3, extractLsb'_eq_of_and_eq h (by decide),
        extractLsb'_eq_of_and_eq h (by decide)⟩
    rw [same]
  · have rd : (extract w).rd = (extract w').rd := extractLsb'_eq_of_and_eq h (by decide)
    have rs1 : (extract w).rs1 = (extract w').rs1 := extractLsb'_eq_of_and_eq h (by decide)
    rw [instrOfFields_of_one one, instrOfFields_of_one (funct3 ▸ one), rd, rs1]
  · rw [instrOfFields_of_two_le two_le, instrOfFields_of_two_le (funct3 ▸ two_le), funct3]

/-- Settles O8: the opcode map's row of funct3 1, and the register law for the sample `xcount` writes. -/
theorem selectorIsTheRs1Field : Obligations.SelectorIsTheRs1Field := by
  unfold Obligations.SelectorIsTheRs1Field
  refine ⟨fun w hw one => ?_, fun rd s => ?_, fun rd s t hrd ht => ?_⟩
  · rw [decodeWord_of_matchesPattern hw, instrOfFields_of_one one, ← validSelector_iff, ← validSelector_eq_false_iff]
    refine ⟨fun valid => ?_, fun invalid => ?_⟩
    · exact congrArg Except.ok (if_pos valid)
    · exact congrArg Except.ok (if_neg (Bool.eq_false_iff.mp invalid))
  · rw [exec_xcount_of_valid rfl, exec_xcount_of_valid rfl]
  · rw [exec_xcount_of_valid rfl] at ht
    cases ht
    rw [readReg_congr (retire_x _), readReg_writeReg_same hrd]

/-- Settles O9: each malformed form is the end of a dispatch that logged one error. -/
theorem malformedRequestsOnlyLog : Obligations.MalformedRequestsOnlyLog := by
  unfold Obligations.MalformedRequestsOnlyLog
  refine ⟨fun w hw => ⟨_, decodeWord_of_matchesPattern hw⟩, fun w i s hd malformed => ?_⟩
  obtain ⟨-, rfl⟩ := decodeWord_ok hd
  have logs : ∃ e, exec (instrOfFields (extract w)) s = .next (retire (logErr e s)) := by
    rcases malformed with four_le | ⟨one, selector⟩ | ⟨zero, level⟩
    · rw [instrOfFields_of_four_le four_le]
      exact ⟨_, exec_unrecognised _ s⟩
    · have invalid : validSelector (extract w).rs1 = false := (validSelector_eq_false_iff _).mpr selector
      rw [instrOfFields_of_one one, if_neg (Bool.eq_false_iff.mp invalid)]
      exact ⟨_, exec_xcountBadsel_of_invalid invalid _ s⟩
    · rw [instrOfFields_of_zero zero]
      exact ⟨_, exec_simprint_of_badLevel level _ _⟩
  obtain ⟨e, he⟩ := logs
  exact ⟨e, _, he, retire_logErr_frame e s⟩

/-- Settles O1: by running the decoder on each word. -/
theorem specWordsDecode : Obligations.SpecWordsDecode := by
  unfold Obligations.SpecWordsDecode
  decide

end Sys2Proof.Proofs

/-!
SUPPORT. The codec as arithmetic: a field as a shift and a mask of its word, a word as the sum of its fields.
-/
namespace Sys2Proof

/-- A field of a word is the word shifted down to the field and masked with the field's ones. -/
theorem toNat_extractLsb'_eq_shiftRight_and {n : Nat} (w : BitVec n) (start len : Nat) :
    (w.extractLsb' start len).toNat = (w.toNat >>> start) &&& (2 ^ len - 1) := by
  rw [BitVec.extractLsb'_toNat, Nat.and_two_pow_sub_one_eq_mod]

/-- The codec does not distinguish words that agree on bits [24:7]: the mask keeps each of its four fields whole. -/
theorem extract_eq_of_and_eq {w w' : Word} (h : w &&& 0x01FFFF80#32 = w' &&& 0x01FFFF80#32) :
    extract w = extract w' := by
  have rd : (extract w).rd = (extract w').rd := extractLsb'_eq_of_and_eq h (by decide)
  have funct3 : (extract w).funct3 = (extract w').funct3 := extractLsb'_eq_of_and_eq h (by decide)
  have rs1 : (extract w).rs1 = (extract w').rs1 := extractLsb'_eq_of_and_eq h (by decide)
  have rs2 : (extract w).rs2 = (extract w').rs2 := extractLsb'_eq_of_and_eq h (by decide)
  exact (Fields.mk.injEq ..).mpr ⟨rd, funct3, rs1, rs2⟩

/-- The upper part of two joined bit vectors weighs two to the width of the lower: their bits are disjoint, so "or" is a sum. -/
theorem toNat_append_eq_add {m n : Nat} (x : BitVec m) (y : BitVec n) :
    (x ++ y).toNat = x.toNat * 2 ^ n + y.toNat := by
  rw [BitVec.toNat_append, ← Nat.shiftLeft_add_eq_or_of_lt y.isLt, Nat.shiftLeft_eq]

/-- R100: a word made from fields is the sum of the fields at their weights and the opcode. -/
theorem toNat_encodeFields (f7 : BitVec 7) (rs2 rs1 : RegIdx) (f3 : BitVec 3) (rd : RegIdx) :
    (encodeFields f7 rs2 rs1 f3 rd).toNat =
      f7.toNat * 2 ^ 25 + rs2.toNat * 2 ^ 20 + rs1.toNat * 2 ^ 15 + f3.toNat * 2 ^ 12 + rd.toNat * 2 ^ 7 + 0x7B := by
  have opcode : Config.customOpcode.toNat = 0x7B := rfl
  simp only [encodeFields, toNat_append_eq_add, opcode]
  ring

end Sys2Proof

/-!
SUPPORT. The statements of 40_bitfield_codec.md.
-/
namespace Sys2Proof.Proofs

/-- Settles O3: a field's shift and mask, the mask of bits [24:7], and the codec run on the three words of R120. -/
theorem extractionIsShiftAndMask : Obligations.ExtractionIsShiftAndMask := by
  unfold Obligations.ExtractionIsShiftAndMask
  refine ⟨fun w => ?_, fun _ _ => extract_eq_of_and_eq, by decide, by decide, by decide⟩
  have field := toNat_extractLsb'_eq_shiftRight_and w
  exact ⟨field 7 5, field 12 3, field 15 5, field 20 5⟩

/-- Settles O4: the opcode is the lowest part of the word, the codec recovers the parts above it, and their weights add up. -/
theorem everyFieldCombinationIsRecovered : Obligations.EveryFieldCombinationIsRecovered := by
  unfold Obligations.EveryFieldCombinationIsRecovered
  intro f7 rs2 rs1 f3 rd
  exact ⟨Laws.encodeFields_opcode .., extract_encodeFields .., toNat_encodeFields ..⟩

end Sys2Proof.Proofs

/-!
SUPPORT. The core's turn on an instruction it can fetch: the bytes at the pc decide what the step executes.
-/
namespace Sys2Proof

/-- The decoder reads a word from its bytes alone. -/
theorem decode_bytesOfWord (w : Word) : decode (bytesOfWord w) = (decodeWord w).map (fun i => (i, [])) := by
  simpa using decode_bytesOfWord_append w []

/-- A row of the opcode table decodes as its word does. -/
theorem decodeWord_of_decodeTableWord {nbits w : Nat} {i : Instr} (h : decodeTableWord nbits w = some i) :
    decodeWord (tableWord nbits w) = .ok i := by
  rw [decodeTableWord, decode_bytesOfWord] at h
  cases hw : decodeWord (tableWord nbits w) with
  | ok j => simpa [hw, Except.map] using h
  | error e => simp [hw, Except.map] at h

end Sys2Proof

namespace Sys2Proof.Machine

theorem fetch_of_decode {s : State} {off : Nat} {i : Instr} {rest : List Byte} (ho : fetchOffset s.plat s.pc = .ok off)
    (hd : decode (fetchBytes off s) = .ok (i, rest)) : fetch s = .ok i := by
  simp only [fetch, ho, hd]

/-- A fetch from instruction memory that holds the bytes of a word of the block answers that word's instruction. -/
theorem fetch_of_word {s : State} {off : Nat} {w : Word} {i : Instr} (ho : fetchOffset s.plat s.pc = .ok off)
    (hb : fetchBytes off s = bytesOfWord w) (hw : decodeWord w = .ok i) : fetch s = .ok i :=
  fetch_of_decode ho (by rw [hb, decode_bytesOfWord, hw]; rfl)

/-- A fetch that is answered was made at the offset of the pc in the window at IMEM_BASE. -/
theorem eq_windowOffset_of_fetchOffset {p : Config.Platform} {pc : Word} {off : Nat} (h : fetchOffset p pc = .ok off) :
    off = windowOffset p.imemBase pc := by
  unfold fetchOffset at h
  split at h
  · cases h
  · split at h
    · cases h; rfl
    · cases h

/-- On the turn of a core that is not halted the step executes the fetched instruction (R130). -/
theorem step_eq_exec_of_fetch {s : State} {i : Instr} (hn : nextTurn s = some .core) (hh : s.halted = false)
    (hf : fetch s = .ok i) : step s = exec i (popTurn s) := by
  have hf' : fetch (popTurn s) = .ok i := hf
  simp [step_eq_coreTurn hn, coreTurn, hh, hf']

/-- A word stored in instruction memory is fetched back where it was stored. -/
theorem fetchBytes_store_bytesOfWord {s : State} {m : Memory} (hm : m.wf) (off : Nat) (w : Word)
    (hs : s.imem = m.store off (bytesOfWord w)) : fetchBytes off s = bytesOfWord w := by
  simp [fetchBytes, hs, Memory.read_store _ _ _ _ hm, bytesOfWord]

end Sys2Proof.Machine

/-!
SUPPORT. The severities of `simprint` and its text loop where the bus answers.
-/
namespace Sys2Proof.Machine

open Sys2Proof.Safety

theorem severityOfLevel_levelOfSeverity (sev : Severity) : severityOfLevel (levelOfSeverity sev) = some sev := by
  cases sev <;> rfl

/-- The levels 0 to 4 are those of the five severities (R131). -/
theorem exists_eq_levelOfSeverity {level : Word} (h : level.toNat ≤ 4) : ∃ sev, level = levelOfSeverity sev := by
  have levels : level = 0#32 ∨ level = 1#32 ∨ level = 2#32 ∨ level = 3#32 ∨ level = 4#32 := by bv_omega
  rcases levels with rfl | rfl | rfl | rfl | rfl
  exacts [⟨.error, rfl⟩, ⟨.warning, rfl⟩, ⟨.info, rfl⟩, ⟨.debug, rfl⟩, ⟨.noisy, rfl⟩]

/-- `simprint` with a level of a severity prints the text its loop answers, in the state after the reads (R131). -/
theorem exec_simprint_of_readText {rd rs1 : RegIdx} {s s' : State} {sev : Severity} {text : List (BitVec 7)}
    (hl : readReg rd s = levelOfSeverity sev) (ht : readText Config.simprintMax (readReg rs1 s) s = .ok (text, s'))
    (rs2 : RegIdx) :
    exec (.simprint rd rs1 rs2) s = .next (retire (logEvent (.print sev text (readReg rs2 s)) s')) := by
  simp only [exec, execSimprint, hl, severityOfLevel_levelOfSeverity, ht]

/-- The text loop ends where the bus answers every address it may read. -/
theorem readText_completes {n : Nat} {ptr : Word} {s : State} (h : ∀ a ∈ addressesFrom ptr n, answered s.plat a) :
    ∃ text s', readText n ptr s = .ok (text, s') := by
  cases ht : readText n ptr s with
  | ok p => exact ⟨p.1, p.2, rfl⟩
  | error r =>
    obtain ⟨k, s', hk, hplat, hr⟩ := readText_error ht
    have mapped : answered s.plat (ptr + BitVec.ofNat 32 k) :=
      h _ (List.mem_map.mpr ⟨k, List.mem_range.mpr hk, rfl⟩)
    rcases busRead_error hr with ⟨-, target⟩ | ⟨-, target⟩
    · exact absurd (hplat ▸ target) mapped.2
    · exact absurd (hplat ▸ target) mapped.1

/-- The masked bytes at the first `n` addresses from a pointer, up to the first masked zero (D14). -/
def textFrom (s : State) (ptr : Word) (n : Nat) : List (BitVec 7) :=
  ((addressesFrom ptr n).map fun a => maskChar (byteAt s a)).takeWhile fun c => c != 0#7

theorem textAt_eq_textFrom (s : State) (ptr : Word) : textAt s ptr = textFrom s ptr Config.simprintMax := rfl

theorem textFrom_succ (s : State) (ptr : Word) (n : Nat) :
    textFrom s ptr (n + 1) =
      if maskChar (byteAt s ptr) = 0#7 then []
      else maskChar (byteAt s ptr) :: textFrom s (ptr + 1#32) n := by
  by_cases h : maskChar (byteAt s ptr) = 0#7 <;> simp [textFrom, addressesFrom_succ, h]

/-- Byte reads at a list of addresses are put on the bus. -/
def noteBusReads (as : List Word) (s : State) : State :=
  { s with out := { s.out with busReads := s.out.busReads ++ as } }

theorem noteBusReads_noteBusRead (a : Word) (as : List Word) (s : State) :
    noteBusReads as (noteBusRead a s) = noteBusReads (a :: as) s := by
  simp [noteBusReads, noteBusRead]

/-- The text loop on a string in the two memories answers that string, and reads it and its terminator. -/
theorem readText_of_mapsToMemory {n : Nat} : ∀ {ptr : Word} {s : State},
    (∀ a ∈ addressesFrom ptr (min n ((textFrom s ptr n).length + 1)), mapsToMemory s.plat a) →
    readText n ptr s =
      .ok (textFrom s ptr n, noteBusReads (addressesFrom ptr (min n ((textFrom s ptr n).length + 1))) s) := by
  induction n with
  | zero => intro ptr s _; simp [readText, textFrom, addressesFrom, noteBusReads]
  | succ n ih =>
    intro ptr s mapped
    rw [Nat.add_min_add_right, addressesFrom_succ] at mapped ⊢
    obtain ⟨first, others⟩ := List.forall_mem_cons.mp mapped
    simp only [readText, busRead_memory first]
    by_cases zero : maskChar (byteAt s ptr) = 0#7
    · simp [textFrom_succ, zero, addressesFrom, noteBusReads, noteBusRead]
    · have text : textFrom s ptr (n + 1) = maskChar (byteAt s ptr) :: textFrom s (ptr + 1#32) n := by
        rw [textFrom_succ, if_neg zero]
      rw [text, List.length_cons] at others ⊢
      rw [if_neg zero, ih (s := noteBusRead ptr s) others, ← noteBusReads_noteBusRead]
      rfl

end Sys2Proof.Machine

/-!
SUPPORT. What the two handshake instructions answer, and the counter's low 32 bits.
-/
namespace Sys2Proof.Machine

/-- R133: with the control block attached (D23) the handler is the handshake of R163. -/
theorem exec_hostreq (s : State) : exec .hostreq s = .next (retire (handshake .hostReq modeFreeze s)) := rfl

/-- R134: with the control block attached (D23) the handler is the handshake of R164. -/
theorem exec_finish (s : State) : exec .finish s = .next (retire (handshake .finish modeFreezeReset s)) := rfl

/-- A counter at least as wide as a word shows the same word whatever its width. -/
theorem ofNat_mod_two_pow {n w : Nat} (h : w ≤ n) (v : Nat) : BitVec.ofNat w (v % 2 ^ n) = BitVec.ofNat w v := by
  apply BitVec.eq_of_toNat_eq
  rw [BitVec.toNat_ofNat, BitVec.toNat_ofNat, Nat.mod_mod_of_dvd _ (Nat.pow_dvd_pow 2 h)]

end Sys2Proof.Machine

/-!
SUPPORT. The frame of the six instructions (R136): what an instruction that answers a next state leaves as it was.
-/
namespace Sys2Proof.Machine

variable {i : Instr} {s t : State}

/-- An instruction writes registers, the pc, the counter, the mode, the pending set, the halted flag, the log and the bus reads alone,
and the counter does not fall. -/
theorem exec_frame (h : exec i s = .next t) :
    t = { s with
      x := t.x
      pc := s.pc + 4#32
      instret := t.instret
      tick := t.tick
      mode := t.mode
      pending := t.pending
      halted := t.halted
      out := { s.out with log := t.out.log, busReads := t.out.busReads } } ∧
    s.instret ≤ t.instret := by
  rcases exec_next h with ⟨e, rfl⟩ | ⟨_, _, _, _, _, s', -, ht, rfl⟩ | ⟨rd, _, -, -, rfl⟩ | ⟨-, rfl⟩ | ⟨-, rfl⟩
  · exact ⟨rfl, Nat.le_add_right _ _⟩
  · obtain ⟨-, -, hs'⟩ := readText_ok ht
    rw [hs']
    exact ⟨rfl, Nat.le_add_right _ _⟩
  · by_cases hrd : rd = 0#5
    · rw [hrd, writeReg_zero]
      exact ⟨rfl, Nat.le_add_right _ _⟩
    · rw [writeReg_of_ne hrd]
      exact ⟨rfl, Nat.le_add_right _ _⟩
  · rw [hostRequest, handshake_eq]
    exact ⟨rfl, Nat.le_add_right _ _⟩
  · rw [completionNotify, handshake_eq]
    exact ⟨rfl, Nat.le_add_right _ _⟩

/-- Only the valid `xcount` changes a register, and only its destination. -/
theorem readReg_of_exec (hwf : i.wellFormed = true) (h : exec i s = .next t) {r : RegIdx}
    (hr : ∀ rd sel, i = .xcount rd sel → r ≠ rd) : readReg r t = readReg r s := by
  rcases exec_next h with ⟨e, rfl⟩ | ⟨_, _, _, _, _, s', -, ht, rfl⟩ | ⟨rd, sel, rfl | rfl, valid, rfl⟩ | ⟨-, rfl⟩ | ⟨-, rfl⟩
  · rfl
  · obtain ⟨-, -, hs'⟩ := readText_ok ht
    rw [hs']
    rfl
  · exact (readReg_congr (retire_x _) r).trans (readReg_writeReg_ne (hr rd sel rfl) _ s)
  · simp [Instr.wellFormed, valid] at hwf
  · rw [hostRequest, handshake_eq]
    rfl
  · rw [completionNotify, handshake_eq]
    rfl

/-- Only the two handshakes change the mode, the pending set and the halted flag. -/
theorem mode_pending_halted_of_exec (h : exec i s = .next t) (hh : i ≠ .hostreq) (hf : i ≠ .finish) :
    t.mode = s.mode ∧ t.pending = s.pending ∧ t.halted = s.halted := by
  rcases exec_next h with ⟨e, rfl⟩ | ⟨_, _, _, _, _, s', -, ht, rfl⟩ | ⟨rd, _, -, -, rfl⟩ | ⟨rfl, -⟩ | ⟨rfl, -⟩
  · exact ⟨rfl, rfl, rfl⟩
  · obtain ⟨-, -, hs'⟩ := readText_ok ht
    rw [hs']
    exact ⟨rfl, rfl, rfl⟩
  · exact ⟨writeReg_mode .., writeReg_pending .., writeReg_halted ..⟩
  · exact absurd rfl hh
  · exact absurd rfl hf

/-- Only `simprint` reads the bus. -/
theorem busReads_of_exec (h : exec i s = .next t) (hi : ∀ rd rs1 rs2, i ≠ .simprint rd rs1 rs2) :
    t.out.busReads = s.out.busReads := by
  rcases exec_next h with ⟨e, rfl⟩ | ⟨rd, rs1, rs2, _, _, _, rfl, -, -⟩ | ⟨rd, _, -, -, rfl⟩ | ⟨-, rfl⟩ | ⟨-, rfl⟩
  · rfl
  · exact absurd rfl (hi rd rs1 rs2)
  · exact congrArg Outputs.busReads (writeReg_out ..)
  · rw [hostRequest, handshake_eq]
    rfl
  · rw [completionNotify, handshake_eq]
    rfl

/-- Neither form of `xcount` reads a register: with other contents it does the same to everything but the registers. -/
theorem countOrReject_withRegisters (rd sel : RegIdx) (s : State) (y : Vector Word 32) :
    ∃ z, countOrReject rd sel { s with x := y } = { countOrReject rd sel s with x := z } := by
  by_cases valid : validSelector sel = true
  · by_cases hrd : rd = 0#5
    · exact ⟨y, by simp only [countOrReject, if_pos valid, hrd, writeReg_zero]⟩
    · exact ⟨_, by simp only [countOrReject, if_pos valid, writeReg_of_ne hrd]; rfl⟩
  · exact ⟨y, by simp only [countOrReject, if_neg valid]; rfl⟩

/-- No instruction but `simprint` reads a general register (R137). -/
theorem exec_withRegisters (h : exec i s = .next t) (hi : ∀ rd rs1 rs2, i ≠ .simprint rd rs1 rs2)
    (y : Vector Word 32) : ∃ z, exec i { s with x := y } = .next { t with x := z } := by
  cases i with
  | simprint rd rs1 rs2 => exact absurd rfl (hi rd rs1 rs2)
  | xcount rd sel | xcountBadsel rd sel =>
    cases h
    obtain ⟨z, hz⟩ := countOrReject_withRegisters rd sel s y
    exact ⟨z, congrArg (fun u => Host.Outcome.next (retire u)) hz⟩
  | hostreq | finish =>
    simp only [exec_hostreq, exec_finish, handshake_eq] at h ⊢
    cases h
    exact ⟨y, rfl⟩
  | unrecognised f =>
    cases h
    exact ⟨y, rfl⟩

end Sys2Proof.Machine

/-!
SUPPORT. The statements of 41_custom_instructions.md.
-/
namespace Sys2Proof.Proofs

open Sys2Proof.Machine Sys2Proof.Safety

/-- Settles O24: each clause by the cases of what an instruction can answer; the memories are among the fields the frame keeps. -/
theorem instructionFrame : Obligations.InstructionFrame := by
  unfold Obligations.InstructionFrame
  intro i s t hwf h
  obtain ⟨frame, counter⟩ := exec_frame h
  have imem : t.imem = s.imem := by rw [frame]
  have dmem : t.dmem = s.dmem := by rw [frame]
  exact ⟨fun m a => by rw [memOf_congr imem dmem], fun r => readReg_of_exec hwf h, mode_pending_halted_of_exec h,
    busReads_of_exec h, frame, counter, exec_withRegisters h⟩

/-- Settles O16: the text loop on a string in the two memories, between the level's severity and the record. -/
theorem simprintPrintsTheStringInMemory : Obligations.SimprintPrintsTheStringInMemory := by
  unfold Obligations.SimprintPrintsTheStringInMemory
  intro rd rs1 rs2 s sev level mapped
  rw [textAt_eq_textFrom] at mapped ⊢
  exact exec_simprint_of_readText level (readText_of_mapsToMemory mapped) rs2

/-- Settles O17: the text loop is not refused, and whatever it answers is a text with that many reads. -/
theorem simprintCompletesWhereTheBusAnswers : Obligations.SimprintCompletesWhereTheBusAnswers := by
  unfold Obligations.SimprintCompletesWhereTheBusAnswers
  intro rd rs1 rs2 s hl answers
  obtain ⟨sev, level⟩ := exists_eq_levelOfSeverity hl
  obtain ⟨text, s', ht⟩ := readText_completes answers
  obtain ⟨length, nonzero, hs'⟩ := readText_ok ht
  refine ⟨sev, text, _, exec_simprint_of_readText level ht rs2, level, length, nonzero, ?_⟩
  rw [hs']
  rfl

/-- Settles O10: the fetch at the pc answers the decoded instruction. -/
theorem stepRunsTheDecodedInstruction : Obligations.StepRunsTheDecodedInstruction := by
  unfold Obligations.StepRunsTheDecodedInstruction
  intro s off i rest hn hh ho hd
  exact step_eq_exec_of_fetch hn hh (fetch_of_decode ho hd)

/-- Settles O11: the bytes at the pc are those of the encoded word, which decodes to the instruction. -/
theorem stepRunsAnEncodedInstruction : Obligations.StepRunsAnEncodedInstruction := by
  unfold Obligations.StepRunsAnEncodedInstruction
  intro s i hwf hn hh aligned inside bytes
  have ho : fetchOffset s.plat s.pc = .ok (windowOffset s.plat.imemBase s.pc) := by
    rw [fetchOffset_of_aligned s.plat aligned]
    exact if_pos inside
  exact step_eq_exec_of_fetch hn hh (fetch_of_word ho (fetchBytes_eq_bytesOfWord bytes) (decodeWord_encode hwf))

/-- Settles O14: the bytes of the placed word are read back at the pc. -/
theorem placedWordIsExecutedNext : Obligations.PlacedWordIsExecutedNext := by
  unfold Obligations.PlacedWordIsExecutedNext
  intro s nbits w off i hm ho hd
  obtain rfl := eq_windowOffset_of_fetchOffset ho
  have placed : fetchBytes (windowOffset s.plat.imemBase s.pc) (s.withFetchWord nbits w) = bytesOfWord (tableWord nbits w) :=
    fetchBytes_store_bytesOfWord hm _ _ rfl
  have fetched : fetch (s.withFetchWord nbits w) = .ok i := fetch_of_word ho placed (decodeWord_of_decodeTableWord hd)
  exact step_eq_exec_of_fetch rfl rfl fetched

/-- Settles O15: a level that selects no severity. -/
theorem simprintRejectsLevelsAboveFour : Obligations.SimprintRejectsLevelsAboveFour := by
  unfold Obligations.SimprintRejectsLevelsAboveFour
  intro rd rs1 rs2 s level
  exact exec_simprint_of_badLevel level rs1 rs2

/-- Settles O19: the register write of the sample, discarded at index 0, and a modulus that 2^32 divides. -/
theorem xcountReadsTheCounter : Obligations.XcountReadsTheCounter := by
  unfold Obligations.XcountReadsTheCounter
  intro rd sel s hsel
  refine ⟨?_, fun width => ofNat_mod_two_pow width s.instret⟩
  rw [exec_xcount_of_valid ((validSelector_iff sel).mpr hsel)]
  by_cases hrd : rd = 0#5
  · rw [if_pos hrd, hrd, writeReg_zero]
    rfl
  · rw [if_neg hrd, writeReg_of_ne hrd]
    rfl

/-- Settles O20: a malformed selector. -/
theorem xcountRejectsOtherSelectors : Obligations.XcountRejectsOtherSelectors := by
  unfold Obligations.XcountRejectsOtherSelectors
  intro rd sel s hsel
  exact exec_xcountBadsel_of_invalid ((validSelector_eq_false_iff sel).mpr hsel) rd s

/-- Settles O21: the handshake of R163 and the end of the dispatch. -/
theorem hostreqFreezesAndRaises : Obligations.HostreqFreezesAndRaises := by
  unfold Obligations.HostreqFreezesAndRaises
  intro s
  rw [exec_hostreq, handshake_eq]
  rfl

/-- Settles O22: the handshake of R164 and the end of the dispatch. -/
theorem finishHoldsInResetAndRaises : Obligations.FinishHoldsInResetAndRaises := by
  unfold Obligations.FinishHoldsInResetAndRaises
  intro s
  rw [exec_finish, handshake_eq]
  rfl

/-- Settles O23: the handler only logs. -/
theorem unrecognisedOnlyLogs : Obligations.UnrecognisedOnlyLogs := by
  unfold Obligations.UnrecognisedOnlyLogs
  exact exec_unrecognised

end Sys2Proof.Proofs

/-!
SUPPORT. The interrupt aggregator: the two sets bit by bit, the lines as a function of them, and what a scheduled word access of a
register answers.
-/
namespace Sys2Proof.Machine

/-! ### The bits of the two sets (R150) -/

theorem sourceBit_lt (k : Source) : sourceBit k < 4 := by cases k <;> decide

/-- No two sources share a bit. -/
theorem sourceBit_inj {j k : Source} : sourceBit j = sourceBit k ↔ j = k := by
  cases j <;> cases k <;> decide

theorem sourceMask_eq_twoPow (k : Source) : sourceMask k = BitVec.twoPow 4 (sourceBit k) :=
  (BitVec.twoPow_eq 4 (sourceBit k)).symm

/-- The mask of a source holds its own bit alone. -/
@[simp] theorem getLsbD_sourceMask (j k : Source) : (sourceMask k).getLsbD (sourceBit j) = decide (j = k) := by
  rw [sourceMask_eq_twoPow, BitVec.getLsbD_twoPow]
  simp only [sourceBit_lt, decide_true, Bool.true_and, eq_comm, sourceBit_inj]

theorem getLsbD_setBits (set mask : BitVec 4) (i : Nat) :
    (setBits set mask).getLsbD i = (set.getLsbD i || mask.getLsbD i) := BitVec.getLsbD_or

theorem getLsbD_clearBits (set mask : BitVec 4) {i : Nat} (h : i < 4) :
    (clearBits set mask).getLsbD i = (set.getLsbD i && !mask.getLsbD i) := by
  simp [clearBits, h]

/-- A source already in the set is not counted again (R154). -/
theorem setBits_sourceMask_of_mem {set : BitVec 4} {k : Source} (h : set.getLsbD (sourceBit k) = true) :
    setBits set (sourceMask k) = set := by
  apply BitVec.eq_of_getLsbD_eq
  intro i _
  rw [getLsbD_setBits, sourceMask_eq_twoPow, BitVec.getLsbD_twoPow]
  by_cases hi : sourceBit k = i
  · rw [← hi, h, Bool.true_or]
  · simp [hi]

/-! ### The lines (R155) -/

theorem line_eq (k : Source) (s : State) :
    line k s = (s.enabled.getLsbD (sourceBit k) && s.pending.getLsbD (sourceBit k)) := BitVec.getLsbD_and

/-- An enable write leaves each line to its written bit and its pending bit (R152). -/
theorem line_writeEnable (mask : BitVec 4) (k : Source) (s : State) :
    line k (writeEnable mask s) = (mask.getLsbD (sourceBit k) && s.pending.getLsbD (sourceBit k)) := line_eq k _

/-- A clear drops the lines of the bits it writes and no other (R151). -/
theorem line_writePendingClear (mask : BitVec 4) (k : Source) (s : State) :
    line k (writePendingClear mask s) = (line k s && !mask.getLsbD (sourceBit k)) := by
  rw [line_eq, line_eq, Bool.and_assoc]
  exact congrArg _ (getLsbD_clearBits _ _ (sourceBit_lt k))

/-- A set meets the mask of a source exactly when it holds the source's bit. -/
theorem and_sourceMask_ne_zero (set : BitVec 4) (k : Source) :
    ((set &&& sourceMask k) != 0#4) = set.getLsbD (sourceBit k) := by
  have mask : sourceMask k ≠ 0#4 := by cases k <;> decide
  rw [sourceMask_eq_twoPow] at mask ⊢
  rw [BitVec.and_twoPow]
  cases set.getLsbD (sourceBit k) <;> simp [mask]

/-! ### The low four bits of a written word -/

theorem getLsbD_lowFour (v : Word) {i : Nat} (h : i < 4) : (v.extractLsb' 0 4).getLsbD i = v.getLsbD i := by
  simp [h]

theorem lowFour_setWidth (v : Word) : (v.extractLsb' 0 4).setWidth 32 = v &&& 0xF#32 := by
  apply BitVec.eq_of_toNat_eq
  rw [BitVec.toNat_setWidth_of_le (by decide), toNat_extractLsb'_eq_shiftRight_and]
  rfl

theorem lowFour_eq_zero_of_and {v : Word} (h : v &&& 0xF#32 = 0#32) : v.extractLsb' 0 4 = 0#4 := by
  rw [← lowFour_setWidth] at h
  simpa using congrArg (BitVec.setWidth 4) h

/-! ### Word accesses of the register file (R200) -/

theorem regAt_regOffset (r : CtrlReg) : regAt (regOffset r) = some r := by cases r <;> rfl

theorem offsetStore_regOffset (r : CtrlReg) (v : Word) (s : State) : offsetStore (regOffset r) v s = regStore r v s := by
  rw [offsetStore, regAt_regOffset]

theorem offsetValue_regOffset (r : CtrlReg) (s : State) : offsetValue (regOffset r) s = regValue r s := by
  rw [offsetValue, regAt_regOffset]

/-- What a register reads as does not depend on the turns to come. -/
theorem offsetValue_withSchedule (off : BitVec 10) (s : State) (q : List Turn) :
    offsetValue off { s with schedule := q } = offsetValue off s := by
  unfold offsetValue
  cases regAt off with
  | none => rfl
  | some r => cases r <;> rfl

/-- A scheduled read of an aligned word replies the value of its offset. -/
theorem step_regRead {s : State} {off : BitVec 10} {rest : List Turn}
    (h : s.schedule = .env (.regRead off .word) :: rest) (ha : off.toNat % 4 = 0) :
    step s = .next (sendReply (.register off (offsetValue off s)) { s with schedule := rest }) := by
  rw [step_env h, ← offsetValue_withSchedule off s rest]
  exact if_pos ((wordAccess_iff off .word).mpr ⟨rfl, ha⟩)

theorem regOffset_aligned (r : CtrlReg) : (regOffset r).toNat % 4 = 0 := by cases r <;> rfl

/-- A scheduled word read of one of the nine registers. -/
theorem step_regRead_regOffset {s : State} {r : CtrlReg} {rest : List Turn}
    (h : s.schedule = .env (.regRead (regOffset r) .word) :: rest) :
    step s = .next (sendReply (.register (regOffset r) (regValue r s)) { s with schedule := rest }) := by
  rw [step_regRead h (regOffset_aligned r), offsetValue_regOffset]

/-- A scheduled word write of one of the nine registers. -/
theorem step_regWrite_regOffset {s : State} {r : CtrlReg} {v : Word} {rest : List Turn}
    (h : s.schedule = .env (.regWrite (regOffset r) .word v) :: rest) :
    step s = .next (regStore r v { s with schedule := rest }) := by
  rw [step_regWrite h (regOffset_aligned r), offsetStore_regOffset]

end Sys2Proof.Machine

/-!
SUPPORT. The statements of 42_interrupt_aggregator.md.
-/
namespace Sys2Proof.Proofs

open Sys2Proof.Machine

/-- Settles O27: a line is one bit of the AND of the two sets. -/
theorem linesFollowEnabledAndPending : Obligations.LinesFollowEnabledAndPending := by
  unfold Obligations.LinesFollowEnabledAndPending
  refine ⟨fun s k => ⟨(and_sourceMask_ne_zero (lines s) k).symm, line_eq k s⟩, fun s enabled pending => ?_⟩
  simp only [line_eq, enabled, pending]
  decide

/-- Settles O28: raising sets the bit of the source's mask, which is no other source's; the enable write and the clear then use
the same mask. -/
theorem raiseSetsOnePendingBit : Obligations.RaiseSetsOnePendingBit := by
  unfold Obligations.RaiseSetsOnePendingBit
  intro s k
  have raised : ∀ j, (raiseIrq k s).pending.getLsbD (sourceBit j) = (decide (j = k) || s.pending.getLsbD (sourceBit j)) := by
    intro j
    rw [raiseIrq_pending, BitVec.getLsbD_or, getLsbD_sourceMask, Bool.or_comm]
  have own : (raiseIrq k s).pending.getLsbD (sourceBit k) = true := by rw [raised, decide_eq_true rfl, Bool.true_or]
  have inMask : (sourceMask k).getLsbD (sourceBit k) = true := by rw [getLsbD_sourceMask, decide_eq_true rfl]
  refine ⟨raised, rfl, fun pending => ?_, fun enabled => ?_, ?_, ?_⟩
  · rw [raiseIrq, setBits_sourceMask_of_mem pending]
  · rw [line_eq, own, raiseIrq_enabled, enabled, Bool.and_self]
  · rw [line_writeEnable, own, inMask, Bool.and_self]
  · rw [line_writePendingClear, inMask, Bool.not_true, Bool.and_false]

/-- Settles O29: the store of IntrState clears the low four bits of the word in the pending set, and a line without its pending bit is
low. -/
theorem intrStateReadsAndClears : Obligations.IntrStateReadsAndClears := by
  unfold Obligations.IntrStateReadsAndClears
  intro s v rest
  refine ⟨fun read => step_regRead_regOffset (r := .intrState) read,
    fun write => ⟨_, step_regWrite_regOffset (r := .intrState) write, rfl, ?_⟩⟩
  refine ⟨fun k hk => ?_, fun k written => ?_⟩
  · rw [← getLsbD_lowFour v hk]
    exact getLsbD_clearBits _ _ hk
  · rw [regStore, line_writePendingClear, getLsbD_lowFour v (sourceBit_lt k), written, Bool.not_true, Bool.and_false]

/-- Settles O30: the store of IntrEnable is the low four bits of the word, which the lines and the read then show. -/
theorem intrEnableReplacesAndReadsBack : Obligations.IntrEnableReplacesAndReadsBack := by
  unfold Obligations.IntrEnableReplacesAndReadsBack
  intro s v rest
  refine ⟨fun write => ⟨_, step_regWrite_regOffset (r := .intrEnable) write, rfl, fun k hk => getLsbD_lowFour v hk,
    fun k => ?_, fun zero k => ?_, lowFour_setWidth v⟩, fun read => step_regRead_regOffset (r := .intrEnable) read⟩
  · rw [regStore, line_writeEnable, getLsbD_lowFour v (sourceBit_lt k)]
  · rw [regStore, line_writeEnable, lowFour_eq_zero_of_and zero, BitVec.getLsbD_zero, Bool.false_and]

/-- Settles O31: the store of IntrTest sets the low four bits of the word in the pending set and runs nothing else. -/
theorem intrTestInjectsPendingBits : Obligations.IntrTestInjectsPendingBits := by
  unfold Obligations.IntrTestInjectsPendingBits
  intro s v rest
  refine ⟨fun write => ⟨_, step_regWrite_regOffset (r := .intrTest) write, rfl, fun k hk => ?_⟩,
    offsetValue_regOffset .intrTest s⟩
  rw [← getLsbD_lowFour v hk]
  exact getLsbD_setBits _ _ _

end Sys2Proof.Proofs

/-!
SUPPORT. The mode controller: the core reset of a Control write as the bits of the two words say it, what leaves for the core, the
start PC as a number, and the fault input.
-/
namespace Sys2Proof.Machine

/-! ### The Control write (R161) -/

/-- Step 2 of R161 resets the core when bit 1 of the old mode is set and bit 1 of the Control word is not (D2). -/
theorem clearsReset_iff_bits (v : Word) (s : State) :
    clearsReset v s = true ↔ s.mode.getLsbD 1 = true ∧ v.getLsbD 1 = false := by
  rw [clearsReset_iff, softwareResetFlag_controlMode, softwareResetFlag]

/-- The core reset of step 2 is followed by the start PC of the payload being written. -/
theorem controlWrite_pc_of_clearsReset {v : Word} {s : State} (h : clearsReset v s = true) :
    (controlWrite v s).pc = startPC s.plat (controlPayload v) := by
  rw [controlWrite_eq]
  exact if_pos h

/-- The core is told of its reset first and of its resumption second. -/
theorem controlWrite_coreSignals (v : Word) (s : State) :
    (controlWrite v s).out.coreSignals = s.out.coreSignals ++
      ((if clearsReset v s then [.reset] else []) ++
        (if s.mode ≠ modeRun ∧ controlMode v = modeRun then [.resume] else [])) := by
  rw [controlWrite_eq, ← List.append_assoc]

/-! ### The start PC (R162) -/

theorem startPC_toNat (p : Config.Platform) (pay : BitVec 17) :
    (startPC p pay).toNat = (p.imemBase.toNat + pay.toNat * 2 ^ p.pcStartShift.amount) % 2 ^ 32 := by
  have wide : (pay.setWidth 32).toNat = pay.toNat := BitVec.toNat_setWidth_of_le (by decide)
  rw [startPC, BitVec.toNat_add, BitVec.toNat_shiftLeft, wide, Nat.shiftLeft_eq, Nat.add_mod_mod]

/-! ### The fault input (R165, D24) -/

theorem step_faultReport_of_wired {s : State} {kind : FaultKind} {rest : List Turn}
    (h : s.schedule = .env (.faultReport kind) :: rest) (wired : s.plat.faultInputWired = true) :
    step s = .next (reportFault kind { s with schedule := rest }) := by
  rw [step_env h]
  exact congrArg _ (if_pos wired)

theorem step_faultReport_of_not_wired {s : State} {kind : FaultKind} {rest : List Turn}
    (h : s.schedule = .env (.faultReport kind) :: rest) (notWired : s.plat.faultInputWired = false) :
    step s = .next { s with schedule := rest } := by
  rw [step_env h]
  exact congrArg _ (if_neg (Bool.eq_false_iff.mp notWired))

/-- The pending bits of the two faults (Table R150, D1). -/
theorem sourceMask_faultSource (kind : FaultKind) :
    sourceMask (faultSource kind) = if kind = .instructionFetch then 0b0100#4 else 0b1000#4 := by
  cases kind <;> rfl

end Sys2Proof.Machine

/-!
SUPPORT. The statements of 43_mode_controller.md.
-/
namespace Sys2Proof.Proofs

open Sys2Proof.Machine

/-- Settles O32: the store of Control is the transition of R161; the core moves with it only when SoftwareReset is cleared. -/
theorem controlWriteTransition : Obligations.ControlWriteTransition := by
  unfold Obligations.ControlWriteTransition
  intro s v rest h
  have bits := clearsReset_iff_bits v { s with schedule := rest }
  refine ⟨controlWrite v _, step_regWrite_regOffset (r := .control) h, rfl, rfl, controlWrite_halted v _, ?_, ?_,
    controlWrite_frame v _⟩
  · split
    · next cleared => exact controlWrite_pc_of_clearsReset (bits.mpr cleared)
    · next kept => exact controlWrite_core_kept (mt (clearsReset_iff v _).mpr (mt bits.mp kept))
  · rw [controlWrite_coreSignals]
    simp only [bits]
    rfl

/-- Settles O33: the shift multiplies by 1 or by 4. -/
theorem startPcIsAWrappingSum : Obligations.StartPcIsAWrappingSum := by
  unfold Obligations.StartPcIsAWrappingSum
  intro p pay
  refine ⟨fun shift => ?_, fun shift => ?_⟩ <;> rw [startPC_toNat, shift]
  · rw [Config.PcStartShift.amount, Nat.pow_zero, Nat.mul_one]
  · rw [Config.PcStartShift.amount, Nat.mul_comm]
    rfl

/-- Settles O34: the handshake of R164. -/
theorem completionNotifyHandshake : Obligations.CompletionNotifyHandshake := by
  unfold Obligations.CompletionNotifyHandshake
  exact handshake_eq .finish modeFreezeReset

/-- Settles O35: the handshake of R165 with the mask of the fault's source, or an input that is never driven. -/
theorem faultReportHaltsAndRaises : Obligations.FaultReportHaltsAndRaises := by
  unfold Obligations.FaultReportHaltsAndRaises
  intro s kind rest h
  refine ⟨fun wired => ?_, step_faultReport_of_not_wired h⟩
  rw [step_faultReport_of_wired h wired, reportFault, handshake_eq, sourceMask_faultSource]
  rfl

end Sys2Proof.Proofs

/-!
SUPPORT. The scrub engine: the aligned range of a request, the completion as one equation, and a queue of completions.
-/
namespace Sys2Proof.Machine

/-! ### Page rounding (R183, R185) -/

theorem roundDown_le (page n : Nat) : roundDown page n ≤ n := Nat.sub_le _ _

theorem lt_roundDown_add {page : Nat} (h : 0 < page) (n : Nat) : n < roundDown page n + page := by
  have := Nat.mod_lt n h
  unfold roundDown
  omega

theorem le_roundUp {page : Nat} (h : 0 < page) (n : Nat) : n ≤ roundUp page n := by
  have : n + page - 1 < roundUp page n + page := lt_roundDown_add h _
  omega

theorem roundUp_lt {page : Nat} (h : 0 < page) (n : Nat) : roundUp page n < n + page := by
  have : roundUp page n ≤ n + page - 1 := roundDown_le page _
  omega

/-- No multiple of the page lies between a number and its rounding up. -/
theorem roundUp_le_of_dvd {page n k : Nat} (h : 0 < page) (multiple : page ∣ k) (le : n ≤ k) : roundUp page n ≤ k :=
  Nat.le_of_lt_add_of_dvd (by have := roundUp_lt h n; omega) (Nat.dvd_of_mod_eq_zero (roundDown_mod _)) multiple

theorem pageSize_dvd_alignedStart (r : ScrubRequest) : pageSize r.target ∣ alignedStart r :=
  Nat.dvd_of_mod_eq_zero (roundDown_mod _)

theorem pageSize_dvd_alignedEnd (r : ScrubRequest) : pageSize r.target ∣ alignedEnd r :=
  Nat.dvd_of_mod_eq_zero (roundDown_mod _)

/-- The end of the 22-bit offset space is a page boundary of either memory. -/
theorem pageSize_dvd_offsetSpace (t : MemTarget) : pageSize t ∣ 0x400000 := by cases t <;> decide

/-- A page that begins inside an aligned range ends inside it. -/
theorem page_le_alignedEnd {r : ScrubRequest} {n : Nat} (h : alignedStart r + n * pageSize r.target < alignedEnd r) :
    alignedStart r + (n + 1) * pageSize r.target ≤ alignedEnd r :=
  Nat.le_of_lt_add_of_dvd (by rw [Nat.succ_mul]; omega)
    (Nat.dvd_add (pageSize_dvd_alignedStart r) (Nat.dvd_mul_left _ _)) (pageSize_dvd_alignedEnd r)

/-! ### The completion (R182, R187) -/

theorem beyondExtent_iff (p : Config.Platform) (r : ScrubRequest) :
    beyondExtent p r = true ↔ alignedStart r < alignedEnd r ∧ memSize p r.target < alignedEnd r := by
  simp [beyondExtent]

theorem beyondExtent_eq_false_iff (p : Config.Platform) (r : ScrubRequest) :
    beyondExtent p r = false ↔ alignedEnd r ≤ alignedStart r ∨ alignedEnd r ≤ memSize p r.target := by
  rw [← Bool.not_eq_true, beyondExtent_iff, not_and_or, Nat.not_lt, Nat.not_lt]

/-- A range passes the extent exactly when one of its pages does; the last page is one. -/
theorem beyondExtent_iff_exists_page (p : Config.Platform) (r : ScrubRequest) :
    beyondExtent p r = true ↔ ∃ n, alignedStart r + n * pageSize r.target < alignedEnd r ∧
      memSize p r.target < alignedStart r + (n + 1) * pageSize r.target := by
  rw [beyondExtent_iff]
  constructor
  · rintro ⟨nonempty, beyond⟩
    have total := pageCount_mul r
    have page_pos := pageSize_pos r.target
    obtain ⟨n, hn⟩ : ∃ n, pageCount r = n + 1 := Nat.exists_eq_succ_of_ne_zero fun zero => by
      rw [zero, Nat.zero_mul] at total
      omega
    rw [hn] at total
    refine ⟨n, ?_, by omega⟩
    rw [Nat.succ_mul] at total
    omega
  · rintro ⟨n, inside, beyond⟩
    have := page_le_alignedEnd inside
    omega

/-- The state after the completion of a request, with the rest of the queue left. -/
def afterScrub (r : ScrubRequest) (queue : List ScrubRequest) (s : State) : State :=
  closeRequest queue (setMem r.target (eraseMemory s.plat.eraseByte r (memOf r.target s)) s)

/-- A completion is refused beyond the extent and otherwise closes the oldest request. -/
theorem completeScrub_cons {s : State} {r : ScrubRequest} {queue : List ScrubRequest} (h : s.scrubQueue = r :: queue) :
    completeScrub s = if beyondExtent s.plat r then .refused (.scrubBeyondExtent r) else .next (afterScrub r queue s) := by
  simp only [completeScrub, h]
  rfl

theorem step_syncPoint {s : State} {r : ScrubRequest} {queue : List ScrubRequest} {rest : List Turn}
    (hsch : s.schedule = .env .syncPoint :: rest) (hq : s.scrubQueue = r :: queue) :
    step s = if beyondExtent s.plat r then .refused (.scrubBeyondExtent r)
      else .next (afterScrub r queue { s with schedule := rest }) := by
  rw [step_env hsch]
  exact completeScrub_cons (s := { s with schedule := rest }) hq

/-- With nothing scheduled a queued request has the next turn (D9, log 7). -/
theorem step_of_queued {s : State} {r : ScrubRequest} {queue : List ScrubRequest} (hsch : s.schedule = [])
    (hq : s.scrubQueue = r :: queue) (inside : beyondExtent s.plat r = false) : step s = .next (afterScrub r queue s) := by
  have idle : popTurn s = s := by rw [popTurn, hsch, List.tail_nil, ← hsch]
  have turn : nextTurn s = some (.env .syncPoint) := by simp [nextTurn, hsch, hq]
  have completes : step s = completeScrub (popTurn s) := by simp only [step, turn, takeTurn, perform]
  rw [completes, idle, completeScrub_cons hq, inside]
  rfl

theorem afterScrub_frame (r : ScrubRequest) (queue : List ScrubRequest) (s : State) :
    afterScrub r queue s = { s with
      scrubQueue := queue
      initStatus := { pending := false, done := true }
      imem := (afterScrub r queue s).imem
      dmem := (afterScrub r queue s).dmem } := by
  unfold afterScrub
  cases r.target <;> rfl

@[simp] theorem afterScrub_plat (r : ScrubRequest) (queue : List ScrubRequest) (s : State) :
    (afterScrub r queue s).plat = s.plat := by
  simp [afterScrub]

@[simp] theorem afterScrub_schedule (r : ScrubRequest) (queue : List ScrubRequest) (s : State) :
    (afterScrub r queue s).schedule = s.schedule := by
  simp [afterScrub]

@[simp] theorem afterScrub_scrubQueue (r : ScrubRequest) (queue : List ScrubRequest) (s : State) :
    (afterScrub r queue s).scrubQueue = queue := rfl

/-! ### What the memories read after a completion -/

/-- Both memories are in canonical form. -/
abbrev memoriesCanonical (s : State) : Prop := ∀ m, (memOf m s).wf

theorem memoriesCanonical_of {s : State} (hi : s.imem.wf) (hd : s.dmem.wf) : memoriesCanonical s
  | .imem => hi
  | .dmem => hd

/-- The offset of the memory lies in the aligned range of the request. -/
abbrev ScrubRequest.covers (r : ScrubRequest) (m : MemTarget) (a : Nat) : Prop :=
  r.target = m ∧ alignedStart r ≤ a ∧ a < alignedEnd r

theorem memOf_afterScrub_same (r : ScrubRequest) (queue : List ScrubRequest) (s : State) :
    memOf r.target (afterScrub r queue s) = eraseMemory s.plat.eraseByte r (memOf r.target s) := by
  rw [← memOf_setMem_same s r.target (eraseMemory _ r _)]
  exact memOf_congr rfl rfl _

theorem memOf_afterScrub_ne {r : ScrubRequest} {m : MemTarget} (h : m ≠ r.target) (queue : List ScrubRequest) (s : State) :
    memOf m (afterScrub r queue s) = memOf m s := by
  rw [← memOf_setMem_ne s r.target m (eraseMemory s.plat.eraseByte r (memOf r.target s)) h]
  exact memOf_congr rfl rfl _

theorem afterScrub_memoriesCanonical {s : State} (h : memoriesCanonical s) (r : ScrubRequest) (queue : List ScrubRequest) :
    memoriesCanonical (afterScrub r queue s) := by
  intro m
  by_cases hm : m = r.target
  · rw [hm, memOf_afterScrub_same]
    exact eraseMemory_wf _ r (h _)
  · rw [memOf_afterScrub_ne hm]
    exact h m

/-- A completion erases the bytes its request covers and no other. -/
theorem read_afterScrub {s : State} (h : memoriesCanonical s) (r : ScrubRequest) (queue : List ScrubRequest) (m : MemTarget)
    (a : Nat) :
    (memOf m (afterScrub r queue s)).read a = if r.covers m a then s.plat.eraseByte else (memOf m s).read a := by
  by_cases hm : m = r.target
  · subst hm
    simp only [memOf_afterScrub_same, read_eraseMemory _ r a (h _), ScrubRequest.covers, true_and]
  · rw [memOf_afterScrub_ne hm, if_neg fun ⟨target, _⟩ => hm target.symm]

/-! ### A queue of completions (R181, R186) -/

/-- The state after the completion of the requests in order, each leaving those after it. -/
def afterScrubs : List ScrubRequest → State → State
  | [], s => s
  | r :: queue, s => afterScrubs queue (afterScrub r queue s)

theorem run_succ_of_step_next {s t : State} (h : step s = .next t) (n : Nat) :
    Sys2Proof.core.run (n + 1) s = Sys2Proof.core.run n t := by
  have first : Sys2Proof.core.step s = .next t := h
  simp only [Host.Core.run, first]

/-- With nothing scheduled the queued requests complete, one a step. -/
theorem run_queued : ∀ {queue : List ScrubRequest} {s : State}, s.schedule = [] → s.scrubQueue = queue →
    (∀ r ∈ queue, beyondExtent s.plat r = false) → Sys2Proof.core.run queue.length s = .next (afterScrubs queue s)
  | [], _, _, _, _ => rfl
  | r :: queue, s, hsch, hq, inside => by
    obtain ⟨first, others⟩ := List.forall_mem_cons.mp inside
    rw [List.length_cons, run_succ_of_step_next (step_of_queued hsch hq first)]
    exact run_queued (by simpa) rfl (by simpa)

theorem afterScrubs_cons_frame (r : ScrubRequest) (queue : List ScrubRequest) (s : State) :
    afterScrubs (r :: queue) s = { s with
      scrubQueue := []
      initStatus := { pending := false, done := true }
      imem := (afterScrubs (r :: queue) s).imem
      dmem := (afterScrubs (r :: queue) s).dmem } := by
  induction queue generalizing r s with
  | nil => exact afterScrub_frame r [] s
  | cons r' queue ih =>
    rw [afterScrubs, ih, afterScrub_frame]

/-- Completions in a row erase the bytes that some request covers and no other. -/
theorem read_afterScrubs (m : MemTarget) (a : Nat) : ∀ (queue : List ScrubRequest) {s : State}, memoriesCanonical s →
    (memOf m (afterScrubs queue s)).read a =
      if ∃ r ∈ queue, r.covers m a then s.plat.eraseByte else (memOf m s).read a
  | [], s, _ => by simp [afterScrubs]
  | r :: queue, s, h => by
    rw [afterScrubs, read_afterScrubs m a queue (afterScrub_memoriesCanonical h r queue), read_afterScrub h, afterScrub_plat]
    simp only [List.exists_mem_cons_iff]
    by_cases later : ∃ r' ∈ queue, r'.covers m a
    · rw [if_pos later, if_pos (.inr later)]
    · simp only [later, or_false, if_false]

end Sys2Proof.Machine

/-!
SUPPORT. The statements of 44_memory_scrub.md.
-/
namespace Sys2Proof.Proofs

open Sys2Proof.Machine

/-- Settles O39: both addresses are rounded to a page, and the 22-bit offset space ends on a page boundary. -/
theorem scrubRangeIsPageAligned : Obligations.ScrubRangeIsPageAligned := by
  unfold Obligations.ScrubRangeIsPageAligned
  refine ⟨fun r => ?_, rfl, rfl⟩
  have pos := pageSize_pos r.target
  exact ⟨roundDown_mod _, roundDown_le _ _, lt_roundDown_add pos _, roundDown_mod _, le_roundUp pos _, roundUp_lt pos _,
    roundUp_le_of_dvd pos (pageSize_dvd_offsetSpace _) r.endAddress.isLt.le⟩

/-- Settles O40: the completion does not pass the extent, so it is the erase of the bytes the request covers. -/
theorem completionErasesExactlyTheRange : Obligations.CompletionErasesExactlyTheRange := by
  unfold Obligations.CompletionErasesExactlyTheRange
  intro s r queue rest hsch hq hi hd range
  have inside := (beyondExtent_eq_false_iff s.plat r).mpr range
  have reads := read_afterScrub (s := { s with schedule := rest }) (memoriesCanonical_of hi hd) r queue
  refine ⟨afterScrub r queue { s with schedule := rest }, ?_, fun a => ?_, fun m hm a => ?_, afterScrub_frame r queue _⟩
  · rw [step_syncPoint hsch hq, inside]
    rfl
  · rw [reads]
    simp only [ScrubRequest.covers, true_and]
    rfl
  · rw [memOf_afterScrub_ne hm]
    rfl

/-- Settles O41: the extent check of the completion says that some page of the range passes the extent. -/
theorem scrubBeyondTheExtentIsRefused : Obligations.ScrubBeyondTheExtentIsRefused := by
  unfold Obligations.ScrubBeyondTheExtentIsRefused
  intro s r queue rest hsch hq
  rw [← beyondExtent_iff_exists_page, step_syncPoint hsch hq]
  split <;> simp [*]

/-- Settles O42: by induction on the queue each step completes its head, and the erased bytes are those some request covers. -/
theorem queuedScrubsComplete : Obligations.QueuedScrubsComplete := by
  unfold Obligations.QueuedScrubsComplete
  intro s hsch hne inside
  obtain ⟨r, queue, hq⟩ := List.exists_cons_of_ne_nil hne
  refine ⟨afterScrubs s.scrubQueue s, run_queued hsch rfl inside, ?_, fun hi hd m a => ?_⟩
  · rw [hq]
    exact afterScrubs_cons_frame r queue s
  · rw [read_afterScrubs m a _ (memoriesCanonical_of hi hd)]
    exact ⟨fun covered => if_pos covered, fun uncovered => if_neg fun ⟨r, hr, target, range⟩ => uncovered r hr target range⟩

/-- Settles O38: the store of InitEnd latches the address and, with Valid, accepts the request that copies what is latched. -/
theorem initEndWriteAcceptsARequest : Obligations.InitEndWriteAcceptsARequest := by
  unfold Obligations.InitEndWriteAcceptsARequest
  intro s v rest h
  have stored := step_regWrite_regOffset (r := .initEnd) h
  refine ⟨fun valid => ?_, fun notValid => ?_⟩ <;> rw [stored, regStore]
  · rw [writeInitEnd, if_pos valid]
    rfl
  · rw [writeInitEnd_of_not_valid notValid]

end Sys2Proof.Proofs

/-!
SUPPORT. The register file: the numbers the registers read as, what reads back after a store, and the accesses that are refused.
-/
namespace Sys2Proof.Machine

/-! ### Offsets with no register (R211, D12) -/

theorem offsetValue_of_unmapped {off : BitVec 10} (h : 0x24 ≤ off.toNat) (s : State) : offsetValue off s = 0#32 := by
  rw [offsetValue, regAt_none h]

theorem offsetStore_of_unmapped {off : BitVec 10} (h : 0x24 ≤ off.toNat) (v : Word) (s : State) :
    offsetStore off v s = s := by
  rw [offsetStore, regAt_none h]

/-- At InitStatus a write is ignored (D38), at the aligned offsets above it there is no register. -/
theorem offsetStore_of_ignored {off : BitVec 10} (h : 0x20 ≤ off.toNat) (ha : off.toNat % 4 = 0) (v : Word) (s : State) :
    offsetStore off v s = s := by
  by_cases unmapped : 0x24 ≤ off.toNat
  · exact offsetStore_of_unmapped unmapped v s
  · have initStatus : off = regOffset .initStatus := BitVec.eq_of_toNat_eq (show off.toNat = 0x20 by omega)
    rw [initStatus, offsetStore_regOffset, regStore]

/-! ### The registers as numbers (R210) -/

theorem statusWord_toNat (st : InitStatus) : (statusWord st).toNat = 2 * st.done.toNat + st.pending.toNat := by
  rw [statusWord, BitVec.toNat_setWidth_of_le (by decide), toNat_append_eq_add, BitVec.toNat_ofBool, BitVec.toNat_ofBool]
  ring

theorem regValue_control_toNat (s : State) : (regValue .control s).toNat = 4 * s.pcStart.toNat + s.mode.toNat := by
  rw [regValue, BitVec.toNat_setWidth_of_le (by decide), toNat_append_eq_add]
  ring

theorem regValue_initStart_toNat (s : State) :
    (regValue .initStart s).toNat = 2 ^ 22 * s.initSel.toNat + s.initStart.toNat := by
  rw [regValue, BitVec.toNat_setWidth_of_le (by decide), toNat_append_eq_add]
  ring

/-! ### What reads back after a store (R202, R204 to R208) -/

/-- The low bits of a word, at the width of a read, are the word masked to them. -/
theorem lowBits_setWidth {n : Nat} (h : n ≤ 32) (v : Word) :
    (v.extractLsb' 0 n).setWidth 32 = v &&& BitVec.ofNat 32 (2 ^ n - 1) := by
  have mask : 2 ^ n - 1 < 2 ^ 32 :=
    (Nat.sub_lt (Nat.two_pow_pos n) Nat.one_pos).trans_le (Nat.pow_le_pow_right (by decide) h)
  apply BitVec.eq_of_toNat_eq
  rw [BitVec.toNat_setWidth_of_le h, toNat_extractLsb'_eq_shiftRight_and, BitVec.toNat_and, BitVec.toNat_ofNat,
    Nat.mod_eq_of_lt mask, Nat.shiftRight_zero]

theorem controlWrite_pcStart (v : Word) (s : State) : (controlWrite v s).pcStart = controlPayload v := by
  rw [controlWrite_eq]

/-- The payload and the mode are adjacent, so Control reads back bits [18:0] of the word written. -/
theorem regValue_controlWrite (v : Word) (s : State) : regValue .control (controlWrite v s) = v &&& 0x0007FFFF#32 := by
  have joined : controlPayload v ++ controlMode v = v.extractLsb' 0 19 :=
    BitVec.extractLsb'_append_extractLsb'_eq_extractLsb' rfl
  rw [regValue, controlWrite_mode, controlWrite_pcStart, joined]
  exact lowBits_setWidth (by decide) v

/-- The selector and the start address are adjacent, so InitStart reads back bits [22:0] of the word written. -/
theorem regValue_regStore_initStart (v : Word) (s : State) :
    regValue .initStart (regStore .initStart v s) = v &&& 0x007FFFFF#32 := by
  have joined : v.extractLsb' 22 1 ++ v.extractLsb' 0 22 = v.extractLsb' 0 23 :=
    BitVec.extractLsb'_append_extractLsb'_eq_extractLsb' rfl
  rw [regStore, regValue, joined]
  exact lowBits_setWidth (by decide) v

/-- Valid is not stored: InitEnd reads back the address, whether a request is accepted or not. -/
theorem regValue_writeInitEnd (v : Word) (s : State) : regValue .initEnd (writeInitEnd v s) = v &&& 0x003FFFFF#32 := by
  rw [regValue, writeInitEnd_frame]
  exact lowBits_setWidth (by decide) v

/-- The offset of each register that reads back what is stored, and the mask of its named bits (Table R38, D33). -/
def storedMasks : List (BitVec 10 × Word) :=
  [(0x04#10, 0x0000000F#32), (0x0C#10, 0x0007FFFF#32), (0x10#10, 0x00000FFF#32),
    (0x14#10, 0x00003FFF#32), (0x18#10, 0x007FFFFF#32), (0x1C#10, 0x003FFFFF#32)]

theorem storedMasks_aligned : ∀ p ∈ storedMasks, p.1.toNat % 4 = 0 := by simp [storedMasks]

theorem offsetValue_offsetStore {off : BitVec 10} {mask : Word} (h : (off, mask) ∈ storedMasks) (v : Word) (s : State) :
    offsetValue off (offsetStore off v s) = v &&& mask := by
  simp only [storedMasks, List.mem_cons, Prod.mk.injEq, List.not_mem_nil, or_false] at h
  obtain ⟨rfl, rfl⟩ | ⟨rfl, rfl⟩ | ⟨rfl, rfl⟩ | ⟨rfl, rfl⟩ | ⟨rfl, rfl⟩ | ⟨rfl, rfl⟩ := h
  · exact lowFour_setWidth v
  · exact regValue_controlWrite v s
  · exact lowBits_setWidth (n := 12) (by decide) v
  · exact lowBits_setWidth (n := 14) (by decide) v
  · exact regValue_regStore_initStart v s
  · exact regValue_writeInitEnd v s

/-! ### Accesses that are refused (R212, D13) -/

theorem step_regRead_refused {s : State} {off : BitVec 10} {width : AccessWidth} {rest : List Turn}
    (h : s.schedule = .env (.regRead off width) :: rest) (hw : ¬ (width = .word ∧ off.toNat % 4 = 0)) :
    step s = .refused (.accessNotWord off) := by
  rw [step_env h]
  exact if_neg (mt (wordAccess_iff off width).mp hw)

theorem step_regWrite_refused {s : State} {off : BitVec 10} {width : AccessWidth} {v : Word} {rest : List Turn}
    (h : s.schedule = .env (.regWrite off width v) :: rest) (hw : ¬ (width = .word ∧ off.toNat % 4 = 0)) :
    step s = .refused (.accessNotWord off) := by
  rw [step_env h]
  exact if_neg (mt (wordAccess_iff off width).mp hw)

end Sys2Proof.Machine

/-!
SUPPORT. The statements of 45_register_file.md.
-/
namespace Sys2Proof.Proofs

open Sys2Proof.Machine

/-- Settles O43: a read only sends the value of its offset, and that value is the register's fields at their weights. -/
theorem registerReadsAnswerTheirFields : Obligations.RegisterReadsAnswerTheirFields := by
  unfold Obligations.RegisterReadsAnswerTheirFields
  refine ⟨fun s off rest => step_regRead, fun s => ?_⟩
  have narrow : ∀ {n} (field : BitVec n), n ≤ 32 → (field.setWidth 32).toNat = field.toNat :=
    fun _ => BitVec.toNat_setWidth_of_le
  exact ⟨narrow s.pending (by decide), narrow s.enabled (by decide), rfl, regValue_control_toNat s,
    narrow s.memBankCtrl (by decide), narrow s.errorStatus (by decide), regValue_initStart_toNat s,
    narrow s.initEnd (by decide), statusWord_toNat s.initStatus,
    fun off h => congrArg BitVec.toNat (offsetValue_of_unmapped h s)⟩

/-- Settles O44: each write is the store of its register, and a storing register reads back the low bits it keeps. -/
theorem writtenRegistersReadBack : Obligations.WrittenRegistersReadBack := by
  unfold Obligations.WrittenRegistersReadBack
  refine ⟨fun s v rest => ⟨fun write => ?_, fun write => ?_, fun write => ?_, fun off ignored ha write => ?_⟩,
    fun s v rest off mask stored write => ?_, fun s v => ?_⟩
  · exact step_regWrite_regOffset (r := .memoryBankControl) write
  · exact step_regWrite_regOffset (r := .errorStatus) write
  · exact step_regWrite_regOffset (r := .initStart) write
  · rw [step_regWrite write ha, offsetStore_of_ignored ignored ha]
  · exact ⟨_, step_regWrite write (storedMasks_aligned _ stored), offsetValue_offsetStore stored v _⟩
  · exact ⟨offsetValue_offsetStore (by decide) v s, offsetValue_offsetStore (by decide) v s,
      offsetValue_offsetStore (by decide) v s, offsetValue_offsetStore (by decide) v s,
      offsetValue_offsetStore (by decide) v s, offsetValue_offsetStore (by decide) v s,
      rfl, fun off unmapped => offsetStore_of_unmapped unmapped v s⟩

/-- Settles O46: an access is either an aligned word, which the offset answers, or is refused. -/
theorem onlyAlignedWordsAreAccessed : Obligations.OnlyAlignedWordsAreAccessed := by
  unfold Obligations.OnlyAlignedWordsAreAccessed
  intro s off width v rest
  refine ⟨fun write => ⟨?_, step_regWrite_refused write⟩, fun read => ⟨?_, step_regRead_refused read⟩⟩
  · rintro ⟨rfl, ha⟩
    exact step_regWrite write ha
  · rintro ⟨rfl, ha⟩
    exact step_regRead read ha

end Sys2Proof.Proofs

/-!
SUPPORT. What changes a pending bit, what a register write leaves of the core, and what a scheduled access to a counter CSR answers.
-/
namespace Sys2Proof.Machine

/-! ### A change of one pending bit (R151, R153, R154) -/

/-- A bit that a write-1-to-set changes is in the mask, and is set after. -/
theorem setBits_changed {set mask : BitVec 4} {i : Nat} (h : (setBits set mask).getLsbD i ≠ set.getLsbD i) :
    mask.getLsbD i = true ∧ (setBits set mask).getLsbD i = true := by
  rw [getLsbD_setBits] at h ⊢
  cases hm : mask.getLsbD i with
  | true => exact ⟨rfl, Bool.or_true _⟩
  | false => exact absurd (by rw [hm, Bool.or_false]) h

/-- A bit that a write-1-to-clear changes is in the mask, and is clear after. -/
theorem clearBits_changed {set mask : BitVec 4} {i : Nat} (hi : i < 4) (h : (clearBits set mask).getLsbD i ≠ set.getLsbD i) :
    mask.getLsbD i = true ∧ (clearBits set mask).getLsbD i = false := by
  rw [getLsbD_clearBits set mask hi] at h ⊢
  cases hm : mask.getLsbD i with
  | true => exact ⟨rfl, Bool.and_false _⟩
  | false => exact absurd (by rw [hm, Bool.not_false, Bool.and_true]) h

/-- A set holds the bit of a source raised into it. -/
theorem raised_mem (set : BitVec 4) (k : Source) : (set ||| sourceMask k).getLsbD (sourceBit k) = true := by
  rw [BitVec.getLsbD_or, getLsbD_sourceMask, decide_eq_true rfl, Bool.or_true]

/-- The bit that a raised source changes is its own. -/
theorem eq_of_raised_changed {set : BitVec 4} {j k : Source}
    (h : (set ||| sourceMask j).getLsbD (sourceBit k) ≠ set.getLsbD (sourceBit k)) : k = j := by
  obtain ⟨inMask, -⟩ := setBits_changed h
  simpa using inMask

/-! ### Register writes, the pending set and the core -/

@[simp] theorem controlWrite_pending (v : Word) (s : State) : (controlWrite v s).pending = s.pending := by
  rw [controlWrite_frame]

/-- Only the writes of IntrState and IntrTest change the pending set. -/
theorem regStore_pending {r : CtrlReg} (hState : r ≠ .intrState) (hTest : r ≠ .intrTest) (v : Word) (s : State) :
    (regStore r v s).pending = s.pending := by
  cases r with
  | intrState => exact absurd rfl hState
  | intrTest => exact absurd rfl hTest
  | control => exact controlWrite_pending v s
  | initEnd => rw [regStore, writeInitEnd_frame]
  | _ => rfl

/-- A register write that is not a Control write clearing SoftwareReset leaves the registers, the pc and the counter. -/
theorem regStore_core_kept {r : CtrlReg} {v : Word} {s : State} (h : r = .control → clearsReset v s = false) :
    (regStore r v s).x = s.x ∧ (regStore r v s).pc = s.pc ∧ (regStore r v s).instret = s.instret := by
  by_cases hr : r = .control
  · subst hr
    rw [regStore, controlWrite_eq, h rfl]
    exact ⟨rfl, rfl, rfl⟩
  · rw [regStore_frame_of_ne_control hr]
    exact ⟨rfl, rfl, rfl⟩

/-- Only a Control write of Run in another mode releases a halted core (R161, step 3). -/
theorem regStore_releases {r : CtrlReg} {v : Word} {s : State} (hh : s.halted = true)
    (h : (regStore r v s).halted = false) : r = .control ∧ s.mode ≠ modeRun ∧ controlMode v = modeRun := by
  by_cases hr : r = .control
  · subst hr
    rw [regStore, controlWrite_halted] at h
    split at h
    · cases h
    · split at h
      · next release => exact ⟨rfl, release⟩
      · rw [hh] at h; cases h
  · rw [regStore_halted hr, hh] at h
    cases h

/-! ### The return from a handshake (R237) -/

/-- A Control write of Run in mode Freeze only resumes the core. -/
theorem controlWrite_run_of_freeze {v : Word} {s : State} (run : controlMode v = modeRun) (mode : s.mode = modeFreeze) :
    controlWrite v s = { s with
      mode := modeRun
      pcStart := controlPayload v
      halted := false
      out := { s.out with coreSignals := s.out.coreSignals ++ [.resume] } } := by
  have kept : clearsReset v s = false := by rw [clearsReset, mode]; rfl
  rw [controlWrite_eq, kept, run, mode]
  simp [modeFreeze, modeRun]

/-- A Control write of Run in mode FreezeReset resets the core, sets it to the start PC and resumes it. -/
theorem controlWrite_run_of_freezeReset {v : Word} {s : State} (run : controlMode v = modeRun)
    (mode : s.mode = modeFreezeReset) :
    controlWrite v s = { s with
      mode := modeRun
      pcStart := controlPayload v
      halted := false
      pc := startPC s.plat (controlPayload v)
      x := Config.resetRegisters s.tick
      instret := Config.resetCounter s.tick
      tick := s.tick + 1
      out := { s.out with coreSignals := s.out.coreSignals ++ [.reset, .resume] } } := by
  have clears : clearsReset v s = true := by rw [clearsReset, run, mode]; rfl
  rw [controlWrite_eq, clears, run, mode]
  simp [modeFreezeReset, modeRun]

/-! ### The counter CSRs (R240) -/

theorem blockCsr_iff (p : Config.Platform) (csr : BitVec 12) :
    blockCsr p csr = true ↔ csr = p.csrCountA ∨ csr = p.csrCountB := by simp [blockCsr]

theorem counterRead_of_running {s : State} {csr : BitVec 12} (running : s.halted = false) (h : blockCsr s.plat csr = true) :
    counterRead csr s = .next (advanceCounter (sendReply (.counter csr (counterSample s)) s)) := by
  rw [counterRead, running, h]
  rfl

theorem counterWrite_of_running {s : State} {csr : BitVec 12} (running : s.halted = false) (h : blockCsr s.plat csr = true)
    (v : Word) : counterWrite csr v s = .next (advanceCounter s) := by
  rw [counterWrite, running, h]
  rfl

end Sys2Proof.Machine

/-!
SUPPORT. The statements of 60_exceptions.md.
-/
namespace Sys2Proof.Proofs

open Sys2Proof.Machine Sys2Proof.Safety

/-- Settles O56: the effects of a running core are excluded, a handshake and the block's reset leave the core halted, and of the
others only the Control write touches the core. -/
theorem haltedCoreWaitsForTheHost : Obligations.HaltedCoreWaitsForTheHost := by
  unfold Obligations.HaltedCoreWaitsForTheHost
  intro s t h hh
  cases stepEffect_of_step h with
  | idle => exact ⟨by simp [hh], fun _ _ => ⟨rfl, rfl, rfl⟩⟩
  | run running | hostreq _ running | finish _ running => rw [hh] at running; cases running
  | fault => exact ⟨by simp, fun _ _ => by simp⟩
  | store r v hn =>
    refine ⟨fun released => ?_, fun _ noReset => regStore_core_kept fun hr => ?_⟩
    · obtain ⟨rfl, mode, run⟩ := regStore_releases (s := popTurn s) hh released
      exact ⟨mode, v, hn, run⟩
    · subst hr
      exact Bool.eq_false_iff.mpr fun clears =>
        noReset _ hn ⟨v, rfl, (clearsReset_iff_bits v (popTurn s)).mp clears⟩
  | scrub | load => exact ⟨by simp [hh], fun _ _ => by simp⟩
  | blockReset hn => exact ⟨nofun, fun notReset => absurd hn notReset⟩

/-- Settles O57: among the effects only a handshake and the write of IntrTest set a pending bit, and only the write of IntrState and
the block's reset clear one. -/
theorem pendingBitsHaveNoOtherCause : Obligations.PendingBitsHaveNoOtherCause := by
  unfold Obligations.PendingBitsHaveNoOtherCause
  intro s t k h changed
  cases stepEffect_of_step h with
  | idle | run => exact absurd rfl changed
  | scrub | load => exact absurd (by simp) changed
  | hostreq hn _ hf =>
    rw [retire_pending, handshake_pending] at changed ⊢
    obtain rfl := eq_of_raised_changed changed
    exact ⟨_, hn, (if_pos (raised_mem _ _)).mpr (.inr (.inl ⟨rfl, hf, rfl⟩))⟩
  | finish hn _ hf =>
    rw [retire_pending, handshake_pending] at changed ⊢
    obtain rfl := eq_of_raised_changed changed
    exact ⟨_, hn, (if_pos (raised_mem _ _)).mpr (.inr (.inr (.inl ⟨rfl, hf, rfl⟩)))⟩
  | fault kind hn wired =>
    rw [handshake_pending] at changed ⊢
    obtain rfl := eq_of_raised_changed changed
    refine ⟨_, hn, (if_pos (raised_mem _ _)).mpr (.inr (.inr (.inr ?_)))⟩
    cases kind with
    | instructionFetch => exact .inl ⟨rfl, wired, rfl⟩
    | dataAccess => exact .inr ⟨rfl, wired, rfl⟩
  | store r v hn =>
    by_cases hState : r = .intrState
    · subst hState
      obtain ⟨inMask, isClear⟩ := clearBits_changed (sourceBit_lt k) changed
      rw [getLsbD_lowFour v (sourceBit_lt k)] at inMask
      exact ⟨_, hn, (if_neg (Bool.eq_false_iff.mp isClear)).mpr (.inl ⟨v, rfl, inMask⟩)⟩
    · by_cases hTest : r = .intrTest
      · subst hTest
        obtain ⟨inMask, isSet⟩ := setBits_changed changed
        rw [getLsbD_lowFour v (sourceBit_lt k)] at inMask
        exact ⟨_, hn, (if_pos isSet).mpr (.inl ⟨v, rfl, inMask⟩)⟩
      · exact absurd (by rw [regStore_pending hState hTest, popTurn_pending]) changed
  | blockReset hn =>
    have isClear : (blockReset (popTurn s)).pending.getLsbD (sourceBit k) = false := BitVec.getLsbD_zero
    exact ⟨_, hn, (if_neg (Bool.eq_false_iff.mp isClear)).mpr (.inr rfl)⟩

/-- Settles O36: the handshake leaves mode Freeze or FreezeReset, and from each the Control write of Run has one outcome. -/
theorem controlWriteReturnsFromAHandshake : Obligations.ControlWriteReturnsFromAHandshake := by
  unfold Obligations.ControlWriteReturnsFromAHandshake
  intro s t u v rest sched run hu
  rw [step_regWrite_regOffset (r := .control) sched, regStore] at hu
  cases hu
  refine ⟨fun ht => ?_, fun ht => ?_⟩
  · rw [exec_hostreq, handshake_eq] at ht
    cases ht
    rw [controlWrite_run_of_freeze run rfl]
    exact ⟨rfl, rfl, rfl, rfl, rfl, raised_mem s.pending .hostReq, rfl, rfl, rfl⟩
  · rw [exec_finish, handshake_eq] at ht
    cases ht
    rw [controlWrite_run_of_freezeReset run rfl]
    exact ⟨rfl, rfl, rfl, raised_mem s.pending .finish, rfl, rfl, rfl⟩

/-- Settles O47: on a running core both accesses move the counter, and the read first sends the counter's low 32 bits. -/
theorem counterCsrsAnswerTheCounter : Obligations.CounterCsrsAnswerTheCounter := by
  unfold Obligations.CounterCsrsAnswerTheCounter
  intro s csr v rest running isCounter
  have block : blockCsr s.plat csr = true := (blockCsr_iff s.plat csr).mpr isCounter
  refine ⟨fun read => ?_, fun write => ?_⟩
  · rw [step_env read]
    exact counterRead_of_running (s := { s with schedule := rest }) running block
  · rw [step_env write]
    exact counterWrite_of_running (s := { s with schedule := rest }) running block v

end Sys2Proof.Proofs

/-!
SUPPORT. The release of the core from the mode after reset, in one Control write or in two (R262).
-/
namespace Sys2Proof.Machine

/-- A scheduled Control write is the transition of R161 and leaves the turns after it. -/
theorem step_scheduled_controlWrite (v : Word) (s : State) (rest : List Turn) :
    step { s with schedule := .env (.regWrite 0x0C#10 .word v) :: rest } =
      .next { controlWrite v s with schedule := rest } :=
  step_withSchedule_regWrite (regOffset_aligned .control) s v rest

/-- A Control write of Freeze in mode FreezeReset resets the core and sets it to the start PC; it does not resume it. -/
theorem controlWrite_freeze_of_freezeReset {v : Word} {s : State} (freeze : controlMode v = modeFreeze)
    (mode : s.mode = modeFreezeReset) :
    controlWrite v s = { s with
      mode := modeFreeze
      pcStart := controlPayload v
      pc := startPC s.plat (controlPayload v)
      x := Config.resetRegisters s.tick
      instret := Config.resetCounter s.tick
      tick := s.tick + 1
      out := { s.out with coreSignals := s.out.coreSignals ++ [.reset] } } := by
  have clears : clearsReset v s = true := by rw [clearsReset, freeze, mode]; rfl
  rw [controlWrite_eq, clears, freeze, mode]
  simp [modeFreezeReset, modeFreeze, modeRun]

/-- In mode FreezeReset the write of Freeze followed by the write of Run does what the one write of Run with the first payload does,
but for the payload latched. -/
theorem controlWrite_freeze_then_run {v v1 v0 : Word} {s : State} (mode : s.mode = modeFreezeReset)
    (run : controlMode v = modeRun) (freeze : controlMode v1 = modeFreeze) (run0 : controlMode v0 = modeRun)
    (pay : controlPayload v1 = controlPayload v) :
    controlWrite v0 (controlWrite v1 s) = { controlWrite v s with pcStart := controlPayload v0 } := by
  rw [controlWrite_freeze_of_freezeReset freeze mode, controlWrite_run_of_freeze run0 rfl,
    controlWrite_run_of_freezeReset run mode, pay]
  simp

end Sys2Proof.Machine

/-!
SUPPORT. The statements of 70_reset_and_hazards.md.
-/
namespace Sys2Proof.Proofs

open Sys2Proof.Machine

/-- Settles O37: the one write resets, places and resumes the core; of the two writes the first resets and places it and the second
resumes it. -/
theorem bootByOneWriteOrTwo : Obligations.BootByOneWriteOrTwo := by
  unfold Obligations.BootByOneWriteOrTwo
  rintro s _ _ v v1 v0 mode - - run rfl freeze pay run0 rfl
  refine ⟨_, { controlWrite v0 (controlWrite v1 s) with schedule := [] }, step_scheduled_controlWrite v s [], ?_, ?_⟩
  · rw [run_two_of_step_next (step_scheduled_controlWrite v1 s _)]
    exact step_scheduled_controlWrite v0 (controlWrite v1 s) []
  · rw [controlWrite_freeze_then_run mode run freeze run0 pay, controlWrite_run_of_freezeReset run mode]
    exact ⟨rfl, rfl, rfl, rfl, rfl, rfl⟩

/-- Settles O50: the fields left to `t` are the core-owned values, the memories and the count of free values; the reset draws them. -/
theorem blockResetRestoresBlockState : Obligations.BlockResetRestoresBlockState := by
  unfold Obligations.BlockResetRestoresBlockState
  intro s rest h
  exact ⟨blockReset { s with schedule := rest }, step_env h, blockReset_memoriesSound _, rfl⟩

end Sys2Proof.Proofs
